-- ==== Sys2Proof/Word.lean ====
section
/-! DEFINITION. The word types of the SFH-32 digest pipeline (spec/00_scope.md R8, R10; spec/30_encoding.md R80).
Every value is an unsigned number of a stated width; `+`, `<<<` and `>>>` of `BitVec` are R11's operators
(modulo 2^w, zeros enter on both sides). -/

namespace Sys2Proof

/-- A `u8`: one input byte, one argument lane (R8, R17). -/
abbrev Byte := BitVec 8

/-- A `u16`: one word of the loader (R8). -/
abbrev Half := BitVec 16

/-- A `u32`: the accumulator, the length, the digest, a command argument (R8). -/
abbrev Word := BitVec 32

/-- The 4-bit opcode, command-word bits [35:32] (R80). -/
abbrev Opcode := BitVec 4

/-- One 36-bit command word (R80). -/
abbrev CommandWord := BitVec 36

end Sys2Proof
end

