-- ==== Sys2Proof/Config.lean ====
section
/-! DEFINITION. What an implementation of the block fixes, and the values the spec leaves free.
The five latencies are OPEN parameters (spec/00_scope.md R9, spec/70_reset_and_hazards.md R214); the free values are
what the observation port and `digest` show while BUSY = 1 (R212, spec/93 U3). -/

namespace Sys2Proof

/-- The five OPEN latencies, in clock cycles, each an integer of at least 1 (R9, R214). -/
structure Latencies where
  /-- LAT_INIT, of INIT. -/
  init : Nat
  /-- LAT_BLOCK, of BLOCK. -/
  block : Nat
  /-- LAT_TAIL, of TAIL1, TAIL2 and TAIL3. -/
  tail : Nat
  /-- LAT_FINISH, of FINISH. -/
  finish : Nat
  /-- LAT_CTRL, of NOP, SETACC, CLEAR, CONFIG, the reserved opcodes, and every command that raises or is dropped by a
  protocol error. -/
  ctrl : Nat
  deriving DecidableEq, Repr

/-- Every latency equal to 1: R217's (informative) reference point of a block built from combinational chains.
DESIGN CHOICE, log entry 1: what `State.reset` carries. -/
def Latencies.singleCycle : Latencies := ⟨1, 1, 1, 1, 1⟩

/-- FREE VALUE (R212, U3; log entry 4): what `obs_data` shows while BUSY = 1, for the draw number of the clock period, the
number of the read within that period, and the selector. Nothing constrains it. -/
opaque Config.freeObs : Nat → Nat → BitVec 3 → Word

/-- FREE VALUE (R212, U3; log entry 4): what `digest` shows while BUSY = 1, for the draw number of the clock period and the
number of the sample within that period. Nothing constrains it. -/
opaque Config.freeDigest : Nat → Nat → Word

end Sys2Proof
end

