-- ==== Sys2Proof/Syntax.lean ====
section
/-! DEFINITION. The commands of the block: one constructor per row of spec/opcode_table.json, in the table's order
(spec/30_encoding.md R82, R83). Byte operands stand in input order, lane 0 first (spec/20_memory.md R63).
Argument bits that a form ignores (R85) are no operand. -/

namespace Sys2Proof

/-- The commands and the reserved opcodes. -/
inductive Instr where
  /-- NOP, op 0x0, form NONE (R150). -/
  | nop
  /-- INIT, op 0x1, form LEN (R131). -/
  | init (len : Word)
  /-- BLOCK, op 0x2, form B4 (R132). -/
  | block (b0 b1 b2 b3 : Byte)
  /-- FINISH, op 0x3, form NONE (R136). -/
  | finish
  /-- Reserved opcode 0x4, the would-be TAIL0 (R154). -/
  | reserved4
  /-- TAIL1, op 0x5, form T1 (R133). -/
  | tail1 (b0 : Byte)
  /-- TAIL2, op 0x6, form T2 (R134). -/
  | tail2 (b0 b1 : Byte)
  /-- TAIL3, op 0x7, form T3 (R135). -/
  | tail3 (b0 b1 b2 : Byte)
  /-- SETACC, op 0x8, form W32 (R151). -/
  | setacc (value : Word)
  /-- CLEAR, op 0x9, form NONE (R152). -/
  | clear
  /-- CONFIG, op 0xA, form CFG: arg[0] and arg[1] (R153). -/
  | config (ieDone ieErr : Bool)
  /-- Reserved opcode 0xB (R154). -/
  | reservedB
  /-- Reserved opcode 0xC (R154). -/
  | reservedC
  /-- Reserved opcode 0xD (R154). -/
  | reservedD
  /-- Reserved opcode 0xE (R154). -/
  | reservedE
  /-- Reserved opcode 0xF (R154). -/
  | reservedF
  deriving DecidableEq, Repr

end Sys2Proof
end

