-- ==== Sys2Proof/WellFormed.lean ====
section
/-! DEFINITION. Well-formedness. A value of `Instr` is well-formed by its types: every value of every operand has an
encoding (spec/30_encoding.md R83). What can be ill-formed is a line of assembly, whose operands are plain numbers and which an
assembler refuses when one is out of range (R89), a HASH of more than 2^32-1 bytes (spec/93 U1), and a latency of 0
(spec/70_reset_and_hazards.md R214). -/

namespace Sys2Proof

/-- One line of assembly, after reading its text: the mnemonics of R89 with their operands as numbers, `.cmd`, and the
pseudo-instructions of R90. -/
inductive AsmLine where
  | nop
  | init (len : Nat)
  | block (b0 b1 b2 b3 : Nat)
  | finish
  | tail1 (b0 : Nat)
  | tail2 (b0 b1 : Nat)
  | tail3 (b0 b1 b2 : Nat)
  | setacc (value : Nat)
  | clear
  | config (ieDone ieErr : Nat)
  /-- `.cmd <op>, <arg>`: the raw word (R89). -/
  | cmd (op arg : Nat)
  /-- `BLOCKW <u32>` (R90). -/
  | blockw (value : Nat)
  /-- `TAIL <b0>[, <b1>[, <b2>]]`, with 1, 2 or 3 operands (R90). -/
  | tail (bytes : List Nat)
  /-- `WAIT` (R90). -/
  | wait
  /-- `HASH <b0>, ..., <bn-1>` (R90); `HASH "<text>"` is this line with the bytes the host encodes the text as. -/
  | hash (bytes : List Nat)
  deriving DecidableEq, Repr

/-- A byte operand is in 0..255 (R89). -/
def byteInRange (n : Nat) : Bool := n < 2 ^ 8

/-- A length or u32 operand is in 0..2^32-1 (R89). -/
def wordInRange (n : Nat) : Bool := n < 2 ^ 32

/-- A CONFIG operand is in 0..1 (R89). -/
def bitInRange (n : Nat) : Bool := n < 2

/-- The operand of `.cmd` that is an opcode is in 0..15: the field has 4 bits (R80). DEDUCED, log entry 12: R89 names no
refusal of a larger one, and it has no encoding. -/
def opcodeInRange (n : Nat) : Bool := n < 2 ^ 4

/-- The checks of R89 on a line's operands; HASH also needs its length to fit the 32-bit length (U1). -/
def AsmLine.wellFormed : AsmLine → Bool
  | .nop | .finish | .clear | .wait => true
  | .init n | .setacc n | .blockw n => wordInRange n
  | .block b0 b1 b2 b3 => byteInRange b0 && byteInRange b1 && byteInRange b2 && byteInRange b3
  | .tail1 b0 => byteInRange b0
  | .tail2 b0 b1 => byteInRange b0 && byteInRange b1
  | .tail3 b0 b1 b2 => byteInRange b0 && byteInRange b1 && byteInRange b2
  | .config d e => bitInRange d && bitInRange e
  | .cmd op arg => opcodeInRange op && wordInRange arg
  | .tail bytes => bytes.all byteInRange && 1 ≤ bytes.length && bytes.length ≤ 3
  | .hash bytes => bytes.all byteInRange && wordInRange bytes.length

/-- Each latency is an integer of at least 1 (R214). -/
def Latencies.wellFormed (lat : Latencies) : Bool :=
  1 ≤ lat.init && 1 ≤ lat.block && 1 ≤ lat.tail && 1 ≤ lat.finish && 1 ≤ lat.ctrl

end Sys2Proof
end

