-- ==== Sys2Proof/Decode.lean ====
section
/-! DEFINITION. Decoding a 36-bit command word, total over all 2^36 words (spec/30_encoding.md R80-R83, R88), and after it the
encoder, written from the same tables. A bit string longer than 36 bits is no command word and is rejected by name. -/

namespace Sys2Proof

/-- The field op = [35:32] of a command word (R80). -/
def opcodeOf (w : CommandWord) : Opcode := w.extractLsb' 32 4

/-- The field arg = [31:0] of a command word (R80). -/
def argOf (w : CommandWord) : Word := w.extractLsb' 0 32

/-- Lane i of an argument, arg[8i+7:8i] (spec/20_memory.md R63): lane 0 carries the earliest byte. -/
def lane (i : Nat) (arg : Word) : Byte := arg.extractLsb' (8 * i) 8

/-- Decoding by op alone (R82, R88). The bits of arg that a form does not consume are dropped here, once (R83, R85). -/
def decode (w : CommandWord) : Instr :=
  let arg := argOf w
  if opcodeOf w = 0x0#4 then .nop
  else if opcodeOf w = 0x1#4 then .init arg
  else if opcodeOf w = 0x2#4 then .block (lane 0 arg) (lane 1 arg) (lane 2 arg) (lane 3 arg)
  else if opcodeOf w = 0x3#4 then .finish
  else if opcodeOf w = 0x4#4 then .reserved4
  else if opcodeOf w = 0x5#4 then .tail1 (lane 0 arg)
  else if opcodeOf w = 0x6#4 then .tail2 (lane 0 arg) (lane 1 arg)
  else if opcodeOf w = 0x7#4 then .tail3 (lane 0 arg) (lane 1 arg) (lane 2 arg)
  else if opcodeOf w = 0x8#4 then .setacc arg
  else if opcodeOf w = 0x9#4 then .clear
  else if opcodeOf w = 0xA#4 then .config (arg.getLsbD 0) (arg.getLsbD 1)
  else if opcodeOf w = 0xB#4 then .reservedB
  else if opcodeOf w = 0xC#4 then .reservedC
  else if opcodeOf w = 0xD#4 then .reservedD
  else if opcodeOf w = 0xE#4 then .reservedE
  else .reservedF

/-- Why a bit string is no command word. -/
inductive DecodeError where
  /-- It has a 1 above bit 35: the command port has 36 wires (R80, spec/10_state.md R38). -/
  | widerThanCommandWord
  deriving DecidableEq, Repr

/-- Decoding a bit string of any length, given as a number (bit 0 the least significant). -/
def decodeBits (bits : Nat) : Except DecodeError Instr :=
  if bits < 2 ^ 36 then .ok (decode (BitVec.ofNat 36 bits)) else .error .widerThanCommandWord

/-- What the decoder reads from the low `nbits` bits of `w`, numbered as spec/opcode_table.json numbers them, every bit above
them 0. A command is one 36-bit word (R80, R81), so a larger number is refused. -/
def decodeTableWord (nbits w : Nat) : Option Instr :=
  (decodeBits (w % 2 ^ nbits)).toOption

/-- The opcode of a command (R82). -/
def Instr.opcode : Instr → Opcode
  | .nop => 0x0#4
  | .init _ => 0x1#4
  | .block _ _ _ _ => 0x2#4
  | .finish => 0x3#4
  | .reserved4 => 0x4#4
  | .tail1 _ => 0x5#4
  | .tail2 _ _ => 0x6#4
  | .tail3 _ _ _ => 0x7#4
  | .setacc _ => 0x8#4
  | .clear => 0x9#4
  | .config _ _ => 0xA#4
  | .reservedB => 0xB#4
  | .reservedC => 0xC#4
  | .reservedD => 0xD#4
  | .reservedE => 0xE#4
  | .reservedF => 0xF#4

/-- A byte operand in an argument, its bit 0 at bit `k` (R89). -/
def byteAt (k : Nat) (b : Byte) : Word := b.setWidth 32 <<< k

/-- The argument of a command as R89 encodes it: the ignored bits are 0, lane 0 is the lowest byte. -/
def Instr.arg : Instr → Word
  | .init len => len
  | .block b0 b1 b2 b3 => byteAt 0 b0 ||| byteAt 8 b1 ||| byteAt 16 b2 ||| byteAt 24 b3
  | .tail1 b0 => byteAt 0 b0
  | .tail2 b0 b1 => byteAt 0 b0 ||| byteAt 8 b1
  | .tail3 b0 b1 b2 => byteAt 0 b0 ||| byteAt 8 b1 ||| byteAt 16 b2
  | .setacc value => value
  | .config ieDone ieErr => (BitVec.ofBool ieDone).setWidth 32 ||| ((BitVec.ofBool ieErr).setWidth 32 <<< 1)
  | .nop | .finish | .clear => 0#32
  | .reserved4 | .reservedB | .reservedC | .reservedD | .reservedE | .reservedF => 0#32

/-- The command word of an opcode and an argument: op in bits [35:32] (R80). -/
def commandWord (op : Opcode) (arg : Word) : CommandWord := op ++ arg

/-- The encoder (R80, R82, R89). -/
def encode (i : Instr) : CommandWord := commandWord i.opcode i.arg

end Sys2Proof
end

