-- ==== Sys2Proof/Machine/Operands.lean ====
section
/-! DEFINITION. Operand assembly: how the bytes of a command become the datapath's operands (spec/00_scope.md R12,
spec/30_encoding.md R84, spec/40_datapath.md R105). Everything is unsigned and zero-extended. -/

namespace Sys2Proof.Machine

/-- `zext_32`: widening an unsigned value to 32 bits by filling with zeros (R12). -/
def zext32 {w : Nat} (v : BitVec w) : Word := v.setWidth 32

/-- `LOAD16(b0, b1)`, the little-endian word loader, b0 the earlier byte (R105; R12's `le16`, R62). -/
def load16 (b0 b1 : Byte) : Word := zext32 b0 ||| (zext32 b1 <<< 8)

/-- BLOCK's second operand after the shift of R106: `zext_32(hi16) << 11`. -/
def blockXorIn (hi16 : Word) : Word := hi16 <<< 11

/-- TAIL3's xor-in operand: `zext_32(b2) << 18`, bits [25:18] (R84, R111). -/
def tail3XorIn (b2 : Byte) : Word := zext32 b2 <<< 18

/-- INIT's block count `n >> 2`, 30 bits (R24, R131). -/
def blockCount (n : Word) : BitVec 30 := (n >>> 2).setWidth 30

/-- INIT's remainder `n & 3`, 2 bits (R25, R131). -/
def remainder (n : Word) : BitVec 2 := (n &&& 3#32).setWidth 2

end Sys2Proof.Machine
end

