-- ==== Sys2Proof/Machine/State.lean ====
section
/-! DEFINITION. The state of the block (spec/10_state.md R22-R31, R42), the input ports (R38), and the state after reset
(spec/70_reset_and_hazards.md R200, R201). -/

namespace Sys2Proof.Machine

/-- STATE, the sequencer phase: all eight encodings of its 3 bits (R26). -/
inductive SeqState where
  /-- 0: no digest started. -/
  | idle
  /-- 1: a digest is in its main loop. -/
  | blocks
  /-- 2: all blocks consumed, the tail not yet. -/
  | tailWait
  /-- 3: blocks and tail consumed. -/
  | finWait
  /-- 4: RESULT holds the digest of the last run. -/
  | done
  /-- 5: a protocol error is recorded in CAUSE. -/
  | error
  /-- 6: unused, unreachable from reset (R37); a command accepted in it raises INTERNAL (R179). -/
  | unused6
  /-- 7: unused, as 6. -/
  | unused7
  deriving DecidableEq, Repr

/-- The cause codes of spec/60_exceptions.md R171. Codes 9-15 are never recorded, and U8 lets a model omit them (log entry 7). -/
inductive Cause where
  /-- 0: no error recorded. -/
  | none
  /-- 1: a reserved opcode. -/
  | illegalOp
  /-- 2: BLOCK, TAIL or FINISH in IDLE. -/
  | notStarted
  /-- 3: more BLOCK commands than LEN >> 2. -/
  | blockOverrun
  /-- 4: a tail before all blocks. -/
  | tailEarly
  /-- 5: a tail of the wrong length, or no tail pending. -/
  | tailUnexpected
  /-- 6: FINISH before blocks and tail are consumed. -/
  | finishEarly
  /-- 7: BLOCK, TAIL or FINISH in DONE. -/
  | alreadyDone
  /-- 8: a command accepted while STATE holds 6 or 7. -/
  | internal
  deriving DecidableEq, Repr

/-- Why the machine stops with a fault: it never does. No constructor: every exception of the block is a protocol error,
a next state (R170, R174), and every read is of a defined register. Safe (log entry 11). -/
inductive Fault where
  deriving DecidableEq, Repr

/-- Why the model gives an instruction no meaning. -/
inductive Refusal where
  /-- Raised by an arm of `exec` whose instruction has no meaning yet; no arm of this model uses it. Safe. -/
  | notModelled (mnemonic : String)
  deriving DecidableEq, Repr

/-- The values of the block's input ports (R38) during one clock period, sampled at the rising edge that ends it. clk is the
step itself. -/
structure Pins where
  /-- rst: synchronous reset, active high. -/
  rst : Bool
  /-- cmd_valid: the host presents a command. -/
  cmdValid : Bool
  /-- cmd_op: command-word bits [35:32]. -/
  cmdOp : Opcode
  /-- cmd_arg: command-word bits [31:0]. -/
  cmdArg : Word
  /-- obs_sel: the observation selector. -/
  obsSel : BitVec 3
  deriving DecidableEq, Repr

/-- The host drives nothing: no reset, no command. DESIGN CHOICE, log entry 2: what an edge beyond the list `pins` sees. -/
def Pins.quiet : Pins := ⟨false, false, 0#4, 0#32, 0#3⟩

/-- The command in flight while BUSY = 1 (R31, R211). -/
structure InFlight where
  /-- The command presented at acceptance (R156); its ignored argument bits are no state (R85). -/
  command : Instr
  /-- How many edges remain until its effect lands: it lands at the edge that finds 1. -/
  edgesLeft : Nat
  deriving DecidableEq, Repr

/-- The block's state, every piece of R42, and after it three fields of the model's own: the parameters and the inputs that the
interface's `step` has no argument for, and the counter that indexes free values. -/
structure State where
  /-- LEN: total input length in bytes, latched by INIT (R22). -/
  len : Word
  /-- ACC: the accumulator (R23). -/
  acc : Word
  /-- CNT: the number of blocks still to be consumed (R24). -/
  cnt : BitVec 30
  /-- REM: LEN & 3, the number of tail bytes (R25). -/
  rem : BitVec 2
  /-- STATE: the sequencer phase (R26). -/
  state : SeqState
  /-- RESULT: the last digest the block finished (R27). -/
  result : Word
  /-- CAUSE: the cause code of the recorded protocol error (R28). -/
  cause : Cause
  /-- ERR_OP: the opcode of the command that raised it (R29). -/
  errOp : Opcode
  /-- IE_DONE: interrupt enable of the DONE condition (R30). -/
  ieDone : Bool
  /-- IE_ERR: interrupt enable of the ERROR condition (R30). -/
  ieErr : Bool
  /-- BUSY and the command in flight: BUSY = 1 is `some` (R31, R42). -/
  inflight : Option InFlight
  /-- The model's own: the five OPEN latencies (R9, R41). No step and no reset changes them (log entry 1). -/
  lat : Latencies
  /-- The model's own: what the host drives on the input ports at the coming edges, first edge first (R156, log entry 2). -/
  pins : List Pins
  /-- The model's own: how many clock periods have passed, the index of the free values (R212, log entry 4). -/
  draws : Nat
  deriving DecidableEq, Repr

/-- The block after a reset edge (R200, R201): every register at the value its rule gives, nothing in flight. The model's own
three fields are given: a reset does not touch them. -/
def State.resetWith (lat : Latencies) (pins : List Pins) (draws : Nat) : State :=
  { len := 0x00000000#32, acc := 0x00000000#32, cnt := 0#30, rem := 0#2, state := .idle, result := 0x00000000#32,
    cause := .none, errOp := 0x0#4, ieDone := false, ieErr := false, inflight := none,
    lat := lat, pins := pins, draws := draws }

/-- The machine right after reset (R201), with nothing presented on its ports. The latencies 1 are a DESIGN CHOICE (log entry
1), as are the empty input list (log entry 2) and the draw number 0 (log entry 4). -/
def State.reset : State := State.resetWith Latencies.singleCycle [] 0

end Sys2Proof.Machine
end

