-- ==== Sys2Proof/Machine/Flags.lean ====
section
/-! DEFINITION. The status bits and the STATUS word: functions of the registers (spec/10_state.md R26, R28, R32, R35). The block
has no flag register (R32). -/

namespace Sys2Proof.Machine

/-- The 3-bit encoding of STATE (R26). -/
def stateCode : SeqState → BitVec 3
  | .idle => 0#3
  | .blocks => 1#3
  | .tailWait => 2#3
  | .finWait => 3#3
  | .done => 4#3
  | .error => 5#3
  | .unused6 => 6#3
  | .unused7 => 7#3

/-- STATE holds 6 or 7 (R26, R179). -/
def stateUnused : SeqState → Bool
  | .unused6 | .unused7 => true
  | .idle | .blocks | .tailWait | .finWait | .done | .error => false

/-- The 4-bit cause code (R171). -/
def causeCode : Cause → BitVec 4
  | .none => 0#4
  | .illegalOp => 1#4
  | .notStarted => 2#4
  | .blockOverrun => 3#4
  | .tailEarly => 4#4
  | .tailUnexpected => 5#4
  | .finishEarly => 6#4
  | .alreadyDone => 7#4
  | .internal => 8#4

/-- BUSY (R31). -/
def busy (s : State) : Bool := s.inflight.isSome

/-- DONE = (STATE = 4) (R32). -/
def doneFlag (s : State) : Bool := decide (s.state = .done)

/-- ERR = (STATE = 5) (R32). -/
def errFlag (s : State) : Bool := decide (s.state = .error)

/-- IRQ = (BUSY = 0) and ((DONE and IE_DONE) or (ERR and IE_ERR)) (R32, spec/60_exceptions.md R180). -/
def irqFlag (s : State) : Bool := !busy s && ((doneFlag s && s.ieDone) || (errFlag s && s.ieErr))

/-- STATUS, field by field at its lowest bit; the reserved bits are 0 (R35). -/
def statusWord (s : State) : Word :=
  zext32 (stateCode s.state) ||| (zext32 (BitVec.ofBool (busy s)) <<< 3) ||| (zext32 (BitVec.ofBool (doneFlag s)) <<< 4) |||
    (zext32 (BitVec.ofBool (errFlag s)) <<< 5) ||| (zext32 (causeCode s.cause) <<< 8) ||| (zext32 s.errOp <<< 12) |||
    (zext32 s.rem <<< 16) ||| (zext32 (BitVec.ofBool s.ieDone) <<< 20) ||| (zext32 (BitVec.ofBool s.ieErr) <<< 21) |||
    (zext32 (BitVec.ofBool (irqFlag s)) <<< 22)

end Sys2Proof.Machine
end

