-- ==== Sys2Proof/Machine/Ops.lean ====
section
/-! DEFINITION. The named operations on the state that the meanings and the clock share: error entry (the block's way of taking
an exception), the common frame of every command, reset, and what passes at every edge. The block has no memory and so no
memory operation (spec/20_memory.md R60). -/

namespace Sys2Proof.Machine

/-- `raise ProtocolError(cause)`: error entry, on the opcode of the command being raised on (spec/60_exceptions.md R174). Errors are
precise: nothing else changes (R173). The returns from ERROR are the meanings of INIT and CLEAR, and reset (R178). -/
def raiseError (c : Cause) (op : Opcode) (s : State) : State :=
  { s with state := .error, cause := c, errOp := op }

/-- What the common frame decides about a command. -/
inductive Verdict where
  /-- The command applies its pseudocode. -/
  | run
  /-- The command is dropped: it changes nothing (R177). -/
  | drop
  /-- The command raises this protocol error (R174). -/
  | raise (c : Cause)
  deriving DecidableEq, Repr

/-- The common frame (spec/41_digest_commands.md R130; priority spec/60_exceptions.md R176): INTERNAL in STATE 6 or 7, then the drop
in ERROR where the command is one of those that are dropped, then the cause of the command's own check, then execution. -/
def frameVerdict (droppedInError : Bool) (check : Option Cause) (s : State) : Verdict :=
  if stateUnused s.state then .raise .internal
  else if droppedInError && decide (s.state = .error) then .drop
  else match check with
    | some c => .raise c
    | none => .run

/-- A command's outcome from its verdict: its whole effect is one atomic update (spec/20_memory.md R66). -/
def settle (op : Opcode) (v : Verdict) (effect : State → State) (s : State) : Host.Outcome State Fault Refusal :=
  match v with
  | .run => .next (effect s)
  | .drop => .next s
  | .raise c => .next (raiseError c op s)

/-- A reset edge (spec/70_reset_and_hazards.md R200, R203): every register takes its reset value and a command in flight is
abandoned, whatever came before. The parameters and the host's coming inputs are not the block's (R41). -/
def resetEdge (s : State) : State := State.resetWith s.lat s.pins s.draws

/-- The input ports during the present clock period: the first of `pins`, or quiet ports beyond the list (log entry 2). -/
def currentPins (s : State) : Pins := s.pins.headD Pins.quiet

/-- What every edge does outside the block: the host's inputs move on by one edge, and the free values of the next period are
new ones (log entry 4). -/
def advance (s : State) : State := { s with pins := s.pins.tail, draws := s.draws + 1 }

/-- The command word on the port: op in bits [35:32], arg in bits [31:0] (R80, spec/10_state.md R38). -/
def portWord (p : Pins) : CommandWord := p.cmdOp ++ p.cmdArg

/-- BUSY becomes 1: a command is in flight, its effect to land at the given number of edges from now (R211). -/
def putInFlight (i : Instr) (edges : Nat) (s : State) : State := { s with inflight := some ⟨i, edges⟩ }

/-- BUSY becomes 0. -/
def endFlight (s : State) : State := { s with inflight := none }

end Sys2Proof.Machine
end

