-- ==== Sys2Proof/Machine/Protocol.lean ====
section
/-! DEFINITION. The sequencer's checks: which command executes, is dropped, or raises which cause in which state
(spec/41_digest_commands.md R131-R136, spec/42_control_commands.md R150-R154; the table spec/60_exceptions.md R175). -/

namespace Sys2Proof.Machine

/-- BLOCK's check (R132). ERROR and the unused states never reach it (R130). -/
def blockCheck : SeqState → Option Cause
  | .idle => some .notStarted
  | .blocks => none
  | .tailWait | .finWait => some .blockOverrun
  | .done => some .alreadyDone
  | .error | .unused6 | .unused7 => none

/-- The check of TAIL<k> against STATE and REM (R133-R135). ERROR and the unused states never reach it (R130). -/
def tailCheck (k rem : BitVec 2) : SeqState → Option Cause
  | .idle => some .notStarted
  | .blocks => some .tailEarly
  | .tailWait => if rem = k then none else some .tailUnexpected
  | .finWait => some .tailUnexpected
  | .done => some .alreadyDone
  | .error | .unused6 | .unused7 => none

/-- FINISH's check (R136). ERROR and the unused states never reach it (R130). -/
def finishCheck : SeqState → Option Cause
  | .idle => some .notStarted
  | .blocks | .tailWait => some .finishEarly
  | .finWait => none
  | .done => some .alreadyDone
  | .error | .unused6 | .unused7 => none

/-- NOP, INIT, SETACC, CLEAR and CONFIG execute in every state 0-5 (R131, R150-R153). -/
def controlVerdict (s : State) : Verdict := frameVerdict false none s

/-- The verdict on BLOCK (R132). -/
def blockVerdict (s : State) : Verdict := frameVerdict true (blockCheck s.state) s

/-- The verdict on TAIL<k> (R133-R135). -/
def tailVerdict (k : BitVec 2) (s : State) : Verdict := frameVerdict true (tailCheck k s.rem s.state) s

/-- The verdict on FINISH (R136). -/
def finishVerdict (s : State) : Verdict := frameVerdict true (finishCheck s.state) s

/-- The verdict on a reserved opcode: ILLEGAL_OP, dropped in ERROR (R154). -/
def reservedVerdict (s : State) : Verdict := frameVerdict true (some .illegalOp) s

/-- The verdict on a command in a state: the table of R175. -/
def verdict (i : Instr) (s : State) : Verdict :=
  match i with
  | .nop => controlVerdict s
  | .init _ => controlVerdict s
  | .block _ _ _ _ => blockVerdict s
  | .finish => finishVerdict s
  | .reserved4 => reservedVerdict s
  | .tail1 _ => tailVerdict 1#2 s
  | .tail2 _ _ => tailVerdict 2#2 s
  | .tail3 _ _ _ => tailVerdict 3#2 s
  | .setacc _ => controlVerdict s
  | .clear => controlVerdict s
  | .config _ _ => controlVerdict s
  | .reservedB => reservedVerdict s
  | .reservedC => reservedVerdict s
  | .reservedD => reservedVerdict s
  | .reservedE => reservedVerdict s
  | .reservedF => reservedVerdict s

end Sys2Proof.Machine
end

