-- ==== Sys2Proof/Machine/ControlCommands.lean ====
section
/-! DEFINITION. The meanings of the control commands NOP, SETACC, CLEAR and CONFIG (spec/42_control_commands.md R150-R153). -/

namespace Sys2Proof.Machine

/-- SETACC's effect (R151). -/
def setAccumulator (value : Word) (s : State) : State := { s with acc := value }

/-- CLEAR's effect: IDLE without starting a run; ACC, LEN, RESULT and the enables are kept (R152). -/
def clearRun (s : State) : State :=
  { s with state := .idle, cnt := 0#30, rem := 0#2, cause := .none, errOp := 0x0#4 }

/-- CONFIG's effect (R153). -/
def setEnables (ieDone ieErr : Bool) (s : State) : State := { s with ieDone := ieDone, ieErr := ieErr }

/-- NOP: no state changes (R150). -/
def execNop (s : State) : Host.Outcome State Fault Refusal := settle 0x0#4 (controlVerdict s) id s

/-- SETACC (R151). -/
def execSetacc (value : Word) (s : State) : Host.Outcome State Fault Refusal :=
  settle 0x8#4 (controlVerdict s) (setAccumulator value) s

/-- CLEAR (R152). -/
def execClear (s : State) : Host.Outcome State Fault Refusal := settle 0x9#4 (controlVerdict s) clearRun s

/-- CONFIG (R153). -/
def execConfig (ieDone ieErr : Bool) (s : State) : Host.Outcome State Fault Refusal :=
  settle 0xA#4 (controlVerdict s) (setEnables ieDone ieErr) s

end Sys2Proof.Machine
end

