-- ==== Sys2Proof/Machine/Datapath.lean ====
section
/-! DEFINITION. The pure datapath functions of spec/40_datapath.md (R100-R114) and the reference function Digest (R120). None of
them reads a register or sets a flag (R14, R104). -/

namespace Sys2Proof.Machine

/-- ADD, modular addition (R100). -/
def add (a x : Word) : Word := a + x

/-- XSHL, xor with the accumulator shifted left (R101). -/
def xshl (a : Word) (k : Nat) : Word := a ^^^ (a <<< k)

/-- ASHR, add the accumulator shifted right, logically (R102). -/
def ashr (a : Word) (k : Nat) : Word := a + (a >>> k)

/-- XIN, xor in an external operand (R103). -/
def xin (a x : Word) : Word := a ^^^ x

/-- ROUND, one main-loop iteration, step by step as R106 writes it. `lo16` and `hi16` are words of the loader, widened. -/
def blockRound (acc lo16 hi16 : Word) : Word :=
  let a1 := add acc lo16
  let temp := xin (blockXorIn hi16) a1
  let a2 := (a1 <<< 16) ^^^ temp
  ashr a2 11

/-- Tail path k = 1 (R109). -/
def tailMix1 (acc : Word) (b0 : Byte) : Word :=
  ashr (xshl (add acc (zext32 b0)) 10) 1

/-- Tail path k = 2 (R110). -/
def tailMix2 (acc : Word) (b0 b1 : Byte) : Word :=
  ashr (xshl (add acc (load16 b0 b1)) 11) 17

/-- Tail path k = 3 (R111). -/
def tailMix3 (acc : Word) (b0 b1 b2 : Byte) : Word :=
  ashr (xin (xshl (add acc (load16 b0 b1)) 16) (tail3XorIn b2)) 11

/-- TAILMIX, the tail-byte multiplexer over the 2-bit remainder: four paths and no fifth (R108, R112, R122). A byte at or beyond
position k is not an input to path k. -/
def tailMix (acc : Word) (k : BitVec 2) (b0 b1 b2 : Byte) : Word :=
  if k = 1#2 then tailMix1 acc b0
  else if k = 2#2 then tailMix2 acc b0 b1
  else if k = 3#2 then tailMix3 acc b0 b1 b2
  else acc

/-- AVALANCHE, the six steps in their order (R114). -/
def avalanche (a0 : Word) : Word :=
  let a1 := xshl a0 3
  let a2 := ashr a1 5
  let a3 := xshl a2 4
  let a4 := ashr a3 17
  let a5 := xshl a4 25
  ashr a5 6

/-- The main loop of Digest over the bytes, four at a time and in order, from an accumulator: the accumulator after the last
full block (R120 step 5). -/
def digestRounds (acc : Word) : List Byte → Word
  | b0 :: b1 :: b2 :: b3 :: rest => digestRounds (blockRound acc (load16 b0 b1) (load16 b2 b3)) rest
  | _ => acc

/-- The bytes that the main loop leaves: the last n & 3 of them (R120, p = 4 * cnt). -/
def tailBytes : List Byte → List Byte
  | _ :: _ :: _ :: _ :: rest => tailBytes rest
  | bytes => bytes

/-- Step 6 of Digest: the tail, by the number of bytes that are left (R120, R108). -/
def digestTail (acc : Word) (tail : List Byte) : Word :=
  tailMix acc (BitVec.ofNat 2 tail.length) (tail.getD 0 0) (tail.getD 1 0) (tail.getD 2 0)

/-- The length of a byte sequence as a u32 (R16). -/
def lengthWord (bytes : List Byte) : Word := BitVec.ofNat 32 bytes.length

/-- Digest(B), the normative meaning of the block, for a byte sequence of at most 2^32-1 bytes (R120). -/
def digest (bytes : List Byte) : Word :=
  if bytes = [] then 0
  else avalanche (digestTail (digestRounds (lengthWord bytes) bytes) (tailBytes bytes))

end Sys2Proof.Machine
end

