-- ==== Sys2Proof/Machine/DigestCommands.lean ====
section
/-! DEFINITION. The meanings of the digest commands INIT, BLOCK, TAIL1, TAIL2, TAIL3 and FINISH
(spec/41_digest_commands.md R131-R136). -/

namespace Sys2Proof.Machine

/-- INIT's effect with length 0: the run is finished at once, RESULT = 0 (R131). -/
def finishEmptyRun (s : State) : State :=
  { s with cause := .none, errOp := 0x0#4, acc := 0#32, len := 0#32, cnt := 0#30, rem := 0#2, result := 0#32, state := .done }

/-- INIT's effect with a length n that is not 0 (R131). -/
def startRun (n : Word) (s : State) : State :=
  { s with
    cause := .none, errOp := 0x0#4, acc := n, len := n, cnt := blockCount n, rem := remainder n,
    state := if blockCount n = 0#30 then .tailWait else .blocks }

/-- BLOCK's effect (R132): one ROUND, one block fewer to consume. -/
def consumeBlock (b0 b1 b2 b3 : Byte) (s : State) : State :=
  { s with
    acc := blockRound s.acc (load16 b0 b1) (load16 b2 b3),
    cnt := s.cnt - 1#30,
    state := if s.cnt - 1#30 = 0#30 then (if s.rem = 0#2 then .finWait else .tailWait) else s.state }

/-- The effect of a tail command (R133-R135): the multiplexer's value, and FINWAIT. -/
def consumeTail (mixed : Word) (s : State) : State := { s with acc := mixed, state := .finWait }

/-- FINISH's effect (R136): the avalanched accumulator in ACC and in RESULT, and DONE. -/
def publishDigest (s : State) : State := { s with acc := avalanche s.acc, result := avalanche s.acc, state := .done }

/-- INIT (R131). -/
def execInit (n : Word) (s : State) : Host.Outcome State Fault Refusal :=
  settle 0x1#4 (controlVerdict s) (if n = 0#32 then finishEmptyRun else startRun n) s

/-- BLOCK (R132). -/
def execBlock (b0 b1 b2 b3 : Byte) (s : State) : Host.Outcome State Fault Refusal :=
  settle 0x2#4 (blockVerdict s) (consumeBlock b0 b1 b2 b3) s

/-- TAIL1 (R133). -/
def execTail1 (b0 : Byte) (s : State) : Host.Outcome State Fault Refusal :=
  settle 0x5#4 (tailVerdict 1#2 s) (consumeTail (tailMix s.acc 1#2 b0 0 0)) s

/-- TAIL2 (R134). -/
def execTail2 (b0 b1 : Byte) (s : State) : Host.Outcome State Fault Refusal :=
  settle 0x6#4 (tailVerdict 2#2 s) (consumeTail (tailMix s.acc 2#2 b0 b1 0)) s

/-- TAIL3 (R135). -/
def execTail3 (b0 b1 b2 : Byte) (s : State) : Host.Outcome State Fault Refusal :=
  settle 0x7#4 (tailVerdict 3#2 s) (consumeTail (tailMix s.acc 3#2 b0 b1 b2)) s

/-- FINISH (R136). -/
def execFinish (s : State) : Host.Outcome State Fault Refusal :=
  settle 0x3#4 (finishVerdict s) publishDigest s

end Sys2Proof.Machine
end

