-- ==== Sys2Proof/Machine/ReservedCommands.lean ====
section
/-! DEFINITION. The meanings of the reserved opcodes 0x4 and 0xB-0xF: ILLEGAL_OP outside ERROR, dropped in ERROR
(spec/42_control_commands.md R154). Their verdict never is `run`, so the effect they pass is never applied. -/

namespace Sys2Proof.Machine

/-- Reserved opcode 0x4 (R154). -/
def execReserved4 (s : State) : Host.Outcome State Fault Refusal := settle 0x4#4 (reservedVerdict s) id s

/-- Reserved opcode 0xB (R154). -/
def execReservedB (s : State) : Host.Outcome State Fault Refusal := settle 0xB#4 (reservedVerdict s) id s

/-- Reserved opcode 0xC (R154). -/
def execReservedC (s : State) : Host.Outcome State Fault Refusal := settle 0xC#4 (reservedVerdict s) id s

/-- Reserved opcode 0xD (R154). -/
def execReservedD (s : State) : Host.Outcome State Fault Refusal := settle 0xD#4 (reservedVerdict s) id s

/-- Reserved opcode 0xE (R154). -/
def execReservedE (s : State) : Host.Outcome State Fault Refusal := settle 0xE#4 (reservedVerdict s) id s

/-- Reserved opcode 0xF (R154). -/
def execReservedF (s : State) : Host.Outcome State Fault Refusal := settle 0xF#4 (reservedVerdict s) id s

end Sys2Proof.Machine
end

