-- ==== Sys2Proof/Machine/Dispatch.lean ====
section
/-! DEFINITION. The one match over the commands: each arm is one call of that command's meaning. -/

namespace Sys2Proof.Machine

/-- The effect of a command on the state, at the edge where it lands (spec/41_digest_commands.md R130). -/
def exec (i : Instr) (s : State) : Host.Outcome State Fault Refusal :=
  match i with
  | .nop => Sys2Proof.Machine.execNop s
  | .init n => Sys2Proof.Machine.execInit n s
  | .block b0 b1 b2 b3 => Sys2Proof.Machine.execBlock b0 b1 b2 b3 s
  | .finish => Sys2Proof.Machine.execFinish s
  | .reserved4 => Sys2Proof.Machine.execReserved4 s
  | .tail1 b0 => Sys2Proof.Machine.execTail1 b0 s
  | .tail2 b0 b1 => Sys2Proof.Machine.execTail2 b0 b1 s
  | .tail3 b0 b1 b2 => Sys2Proof.Machine.execTail3 b0 b1 b2 s
  | .setacc v => Sys2Proof.Machine.execSetacc v s
  | .clear => Sys2Proof.Machine.execClear s
  | .config d e => Sys2Proof.Machine.execConfig d e s
  | .reservedB => Sys2Proof.Machine.execReservedB s
  | .reservedC => Sys2Proof.Machine.execReservedC s
  | .reservedD => Sys2Proof.Machine.execReservedD s
  | .reservedE => Sys2Proof.Machine.execReservedE s
  | .reservedF => Sys2Proof.Machine.execReservedF s

end Sys2Proof.Machine
end

