-- ==== Sys2Proof/Machine/Clock.lean ====
section
/-! DEFINITION. One rising edge of clk: reset, the valid/ready handshake, BUSY and the latencies
(spec/10_state.md R31, R38; spec/70_reset_and_hazards.md R200, R203, R210, R211, R214). -/

namespace Sys2Proof.Machine

/-- The latency of a command that executes (R214). -/
def executingLatency (i : Instr) (lat : Latencies) : Nat :=
  match i with
  | .init _ => lat.init
  | .block _ _ _ _ => lat.block
  | .tail1 _ | .tail2 _ _ | .tail3 _ _ _ => lat.tail
  | .finish => lat.finish
  | .nop | .setacc _ | .clear | .config _ _ => lat.ctrl
  | .reserved4 | .reservedB | .reservedC | .reservedD | .reservedE | .reservedF => lat.ctrl

/-- The latency of a command accepted in a state: LAT_CTRL also for every command that raises or is dropped by a protocol error
(R214). -/
def latencyOf (i : Instr) (s : State) : Nat :=
  if verdict i s = .run then executingLatency i s.lat else s.lat.ctrl

/-- A command is accepted at an edge e0 (R211). With latency 1 its effect lands at once; with latency L > 1 the block is busy
until the edge e(L-1). The registers do not change in between, so the verdict at landing is that at acceptance (log entry 14). -/
def acceptCommand (i : Instr) (s : State) : Host.Outcome State Fault Refusal :=
  if latencyOf i s ≤ 1 then exec i s else .next (putInFlight i (latencyOf i s - 1) s)

/-- One rising edge with the given input ports, from the state before it. Reset wins over everything (R200, R203). While BUSY = 1
no command is accepted (R38), and at the last busy edge the effect lands (R211). Otherwise a presented command is accepted
(R210), and with none the block holds its state (spec/60_exceptions.md R190). -/
def clockEdge (p : Pins) (s : State) : Host.Outcome State Fault Refusal :=
  if p.rst then .next (resetEdge s)
  else match s.inflight with
    | some c =>
      if c.edgesLeft ≤ 1 then exec c.command (endFlight s)
      else .next (putInFlight c.command (c.edgesLeft - 1) s)
    | none => if p.cmdValid then acceptCommand (decode (portWord p)) s else .next s

/-- The input ports when the host presents a command word and nothing else. -/
def presentWord (w : CommandWord) : Pins := ⟨false, true, opcodeOf w, argOf w, 0#3⟩

/-- The host puts a command word on the port of the coming edge of a block that is not busy and whose every latency is 1, so
that the very next edge accepts it and its effect lands there (log entry 3). -/
def placeCommand (w : CommandWord) (s : State) : State :=
  { s with inflight := none, lat := Latencies.singleCycle, pins := presentWord w :: s.pins }

end Sys2Proof.Machine
end

