-- ==== Sys2Proof/Machine/Step.lean ====
section
/-! DEFINITION. One step of the machine: one rising edge of clk with the input ports the host drives (spec/10_state.md R38), and
where a command comes from. -/

namespace Sys2Proof.Machine

/-- One rising edge, with the first of the host's coming inputs; the inputs and the free values move on by one edge. -/
def step (s : State) : Host.Outcome State Fault Refusal := clockEdge (currentPins s) (advance s)

/-- `s` with a command presented at its next edge, so that the next step runs exactly it (log entry 3). -/
def State.withFetchWord (s : State) (nbits w : Nat) : State := placeCommand (BitVec.ofNat 36 (w % 2 ^ nbits)) s

end Sys2Proof.Machine
end

