-- ==== Sys2Proof/Machine/Canonical.lean ====
section
/-! DEFINITION. Command sequences: the canonical command sequence of a byte sequence (spec/41_digest_commands.md R142), running
commands one after another without time, presenting them on the port, and the accumulator values Digest passes through (R143). -/

namespace Sys2Proof.Machine

/-- The BLOCK and TAIL commands of the canonical sequence: one BLOCK per 4 bytes in order, then the tail (R142, R65). -/
def blocksAndTail : List Byte → List Instr
  | b0 :: b1 :: b2 :: b3 :: rest => .block b0 b1 b2 b3 :: blocksAndTail rest
  | [b0, b1, b2] => [.tail3 b0 b1 b2]
  | [b0, b1] => [.tail2 b0 b1]
  | [b0] => [.tail1 b0]
  | [] => []

/-- The canonical command sequence (R142). -/
def canonical (bytes : List Byte) : List Instr :=
  .init (lengthWord bytes) :: (if bytes = [] then [] else blocksAndTail bytes ++ [.finish])

/-- The accumulator after each BLOCK and TAIL of Digest's own steps 5 and 6, from an accumulator (R120). -/
def loopTrace (acc : Word) : List Byte → List Word
  | b0 :: b1 :: b2 :: b3 :: rest =>
    blockRound acc (load16 b0 b1) (load16 b2 b3) :: loopTrace (blockRound acc (load16 b0 b1) (load16 b2 b3)) rest
  | [] => []
  | tail => [digestTail acc tail]

/-- The accumulator of Digest after step 3, after each block, after the tail, and after the avalanche (R120, R143). -/
def digestTrace (bytes : List Byte) : List Word :=
  lengthWord bytes :: (if bytes = [] then [] else loopTrace (lengthWord bytes) bytes ++ [digest bytes])

/-- Commands one after another, each as one atomic step (R66, R69), stopping at the first that does not answer a next state. -/
def runCommands : List Instr → State → Host.Outcome State Fault Refusal
  | [], s => .next s
  | i :: rest, s =>
    match exec i s with
    | .next t => runCommands rest t
    | .fault r => .fault r
    | .refused r => .refused r

/-- The host presents a command for one edge and waits, driving nothing, for the edges that it takes when it executes (R211). -/
def presentAndWait (lat : Latencies) (i : Instr) : List Pins :=
  presentWord (encode i) :: List.replicate (executingLatency i lat - 1) Pins.quiet

/-- The host presents commands one after another without gaps. -/
def presentAll (lat : Latencies) (commands : List Instr) : List Pins := commands.flatMap (presentAndWait lat)

end Sys2Proof.Machine
end

