-- ==== Sys2Proof/Machine/Assembler.lean ====
section
/-! DEFINITION. The assembler of spec/30_encoding.md R89-R91: what a line of assembly encodes, and reading a line's text. An operand
out of range is refused. The block itself never sees any of this (R90, spec/10_state.md R41). -/

namespace Sys2Proof.Machine

/-- The command a byte list of 1, 2 or 3 bytes is the tail of (R90's `TAIL`). -/
def tailCommand : List Byte → Option Instr
  | [b0] => some (.tail1 b0)
  | [b0, b1] => some (.tail2 b0 b1)
  | [b0, b1, b2] => some (.tail3 b0 b1 b2)
  | _ => none

/-- The byte operands of a line, each in 0..255. -/
def operandBytes (ns : List Nat) : List Byte := ns.map (BitVec.ofNat 8)

/-- What a line whose operands are in range encodes (R89), with the expansions of R90. -/
def lineWords : AsmLine → List CommandWord
  | .nop => [encode .nop]
  | .init n => [encode (.init (BitVec.ofNat 32 n))]
  | .block b0 b1 b2 b3 =>
    [encode (.block (BitVec.ofNat 8 b0) (BitVec.ofNat 8 b1) (BitVec.ofNat 8 b2) (BitVec.ofNat 8 b3))]
  | .finish => [encode .finish]
  | .tail1 b0 => [encode (.tail1 (BitVec.ofNat 8 b0))]
  | .tail2 b0 b1 => [encode (.tail2 (BitVec.ofNat 8 b0) (BitVec.ofNat 8 b1))]
  | .tail3 b0 b1 b2 => [encode (.tail3 (BitVec.ofNat 8 b0) (BitVec.ofNat 8 b1) (BitVec.ofNat 8 b2))]
  | .setacc n => [encode (.setacc (BitVec.ofNat 32 n))]
  | .clear => [encode .clear]
  | .config d e => [encode (.config (d == 1) (e == 1))]
  | .cmd op arg => [commandWord (BitVec.ofNat 4 op) (BitVec.ofNat 32 arg)]
  | .blockw n => [commandWord 0x2#4 (BitVec.ofNat 32 n)]
  | .tail bytes => ((tailCommand (operandBytes bytes)).map encode).toList
  | .wait => [encode .nop]
  | .hash bytes => (canonical (operandBytes bytes)).map encode

/-- The command words of a line, refused where an operand is out of range (R89). -/
def assemble (line : AsmLine) : Option (List CommandWord) :=
  if line.wellFormed then some (lineWords line) else none

/-- The lexical items of a line (R89, R91). -/
inductive Token where
  /-- A mnemonic or a number. -/
  | word (chars : List Char)
  /-- A character in single quotes. -/
  | quoted (c : Char)
  /-- A text in double quotes. -/
  | text (chars : List Char)
  | comma
  deriving DecidableEq, Repr

/-- Where the reader of a line stands. -/
inductive LexMode where
  | between
  | inWord (reversed : List Char)
  | inText (reversed : List Char)
  | quoteOpen
  | quoteClose (c : Char)

/-- Reading a line's items. `;` outside quotes starts a comment (R89; that quotes protect it is DEDUCED, log entry 12). DESIGN
CHOICE, log entry 18, since R90 and R91 are silent: there is no escape, so the first double quote ends a text and none can stand
inside one; a single-quoted character is the one character between two single quotes, whichever it is; a line that ends inside
quotes is refused; a quote after other characters of a word is a character of that word. -/
def lexLine : LexMode → List Char → Option (List Token)
  | .between, [] => some []
  | .inWord acc, [] => some [.word acc.reverse]
  | .inText _, [] | .quoteOpen, [] | .quoteClose _, [] => none
  | .between, c :: rest =>
    if c = ';' then some []
    else if c = ',' then (lexLine .between rest).map (Token.comma :: ·)
    else if c = ' ' ∨ c = '\t' then lexLine .between rest
    else if c = '"' then lexLine (.inText []) rest
    else if c = '\'' then lexLine .quoteOpen rest
    else lexLine (.inWord [c]) rest
  | .inWord acc, c :: rest =>
    if c = ';' then some [.word acc.reverse]
    else if c = ',' then (lexLine .between rest).map (fun ts => .word acc.reverse :: .comma :: ts)
    else if c = ' ' ∨ c = '\t' then (lexLine .between rest).map (Token.word acc.reverse :: ·)
    else lexLine (.inWord (c :: acc)) rest
  | .inText acc, c :: rest =>
    if c = '"' then (lexLine .between rest).map (Token.text acc.reverse :: ·)
    else lexLine (.inText (c :: acc)) rest
  | .quoteOpen, c :: rest => lexLine (.quoteClose c) rest
  | .quoteClose d, c :: rest =>
    if c = '\'' then (lexLine .between rest).map (Token.quoted d :: ·) else none

/-- The value of a digit, up to 15. -/
def digitValue (c : Char) : Option Nat :=
  if '0' ≤ c ∧ c ≤ '9' then some (c.toNat - '0'.toNat)
  else if 'a' ≤ c ∧ c ≤ 'f' then some (c.toNat - 'a'.toNat + 10)
  else if 'A' ≤ c ∧ c ≤ 'F' then some (c.toNat - 'A'.toNat + 10)
  else none

/-- A number from its digits, most significant first; none where one is no digit of the base. -/
def numberFrom (base value : Nat) : List Char → Option Nat
  | [] => some value
  | c :: rest =>
    match digitValue c with
    | some d => if d < base then numberFrom base (value * base + d) rest else none
    | none => none

/-- Decimal, or hexadecimal with the `0x` before it (R91). Leading zeros do not change the base (DESIGN CHOICE, log entry 18). -/
def numericLiteral : List Char → Option Nat
  | [] => none
  | ['0', 'x'] => none
  | '0' :: 'x' :: digits => numberFrom 16 0 digits
  | digits => numberFrom 10 0 digits

/-- An operand's value: a number, or the ASCII code of a quoted character (R91). -/
def operandValue : Token → Option Nat
  | .word cs => numericLiteral cs
  | .quoted c => if c.toNat < 128 then some c.toNat else none
  | .text _ | .comma => none

/-- Operands separated by commas (R89). A missing operand, before, between or after commas, is refused (DESIGN CHOICE, log entry
18). -/
def operandValues : List Token → Option (List Nat)
  | [] => some []
  | [t] => (operandValue t).map ([·])
  | t :: .comma :: rest =>
    match rest, operandValue t, operandValues rest with
    | [], _, _ => none
    | _, some v, some vs => some (v :: vs)
    | _, _, _ => none
  | _ :: _ :: _ => none

/-- A line from its lower-case mnemonic and its operands (R89, R90). -/
def lineOf (mnemonic : List Char) (ops : List Nat) : Option AsmLine :=
  if mnemonic = "nop".toList then (match ops with | [] => some .nop | _ => none)
  else if mnemonic = "init".toList then (match ops with | [n] => some (.init n) | _ => none)
  else if mnemonic = "block".toList then (match ops with | [b0, b1, b2, b3] => some (.block b0 b1 b2 b3) | _ => none)
  else if mnemonic = "finish".toList then (match ops with | [] => some .finish | _ => none)
  else if mnemonic = "tail1".toList then (match ops with | [b0] => some (.tail1 b0) | _ => none)
  else if mnemonic = "tail2".toList then (match ops with | [b0, b1] => some (.tail2 b0 b1) | _ => none)
  else if mnemonic = "tail3".toList then (match ops with | [b0, b1, b2] => some (.tail3 b0 b1 b2) | _ => none)
  else if mnemonic = "setacc".toList then (match ops with | [n] => some (.setacc n) | _ => none)
  else if mnemonic = "clear".toList then (match ops with | [] => some .clear | _ => none)
  else if mnemonic = "config".toList then (match ops with | [d, e] => some (.config d e) | _ => none)
  else if mnemonic = ".cmd".toList then (match ops with | [op, arg] => some (.cmd op arg) | _ => none)
  else if mnemonic = "blockw".toList then (match ops with | [n] => some (.blockw n) | _ => none)
  else if mnemonic = "tail".toList then some (.tail ops)
  else if mnemonic = "wait".toList then (match ops with | [] => some .wait | _ => none)
  else if mnemonic = "hash".toList then some (.hash ops)
  else none

/-- The bytes of a text in ASCII (R90, spec/92_eei_decisions.md D29): the encoding of the spec's own programs. -/
def asciiBytes (text : List Char) : Option (List Nat) :=
  text.mapM (fun c => if c.toNat < 128 then some c.toNat else none)

/-- The lines of a line of text: none where it is refused, the empty list where it holds no command. `hostEncoding` is the host's
own encoding of a text as bytes (spec/93 U13). A text stands only after HASH, alone: what follows it, but for a comment, is refused
(DESIGN CHOICE, log entry 18). -/
def parseLine (hostEncoding : List Char → Option (List Nat)) (line : List Char) : Option (List AsmLine) :=
  match lexLine .between line with
  | some [] => some []
  | some [.word m, .text cs] =>
    if m.map Char.toLower = "hash".toList then (hostEncoding cs).map ([AsmLine.hash ·]) else none
  | some (.word m :: ops) =>
    match operandValues ops with
    | some vs => (lineOf (m.map Char.toLower) vs).map ([·])
    | none => none
  | _ => none

/-- The command words of one line of text (R89-R91). -/
def assembleText (hostEncoding : List Char → Option (List Nat)) (line : List Char) : Option (List CommandWord) :=
  match parseLine hostEncoding line with
  | some lines => (lines.mapM assemble).map List.flatten
  | none => none

/-- The command words of a program, one command a line (R89). Only the line feed ends a line, and an empty line holds no command
(DESIGN CHOICE, log entry 18). -/
def assembleProgram (hostEncoding : List Char → Option (List Nat)) (program : List Char) : Option (List CommandWord) :=
  ((program.splitOn '\n').mapM (assembleText hostEncoding)).map List.flatten

end Sys2Proof.Machine
end

