-- ==== Sys2Proof/Machine/Ports.lean ====
section
/-! DEFINITION. The output ports and the observation port (spec/10_state.md R33, R34, R38-R40; spec/42_control_commands.md R155;
spec/70_reset_and_hazards.md R202, R212): combinational functions of the input ports and the state, without any effect. -/

namespace Sys2Proof.Machine

/-- ID, the hardwired identification word (R33). -/
def idWord : Word := 0x53464831#32

/-- The observation map (R34): what `obs_data` shows for a selector while BUSY = 0. -/
def obsValue (sel : BitVec 3) (s : State) : Word :=
  if sel = 0#3 then statusWord s
  else if sel = 1#3 then s.acc
  else if sel = 2#3 then s.len
  else if sel = 3#3 then s.cnt.setWidth 32
  else if sel = 4#3 then s.result
  else if sel = 5#3 then idWord
  else 0x00000000#32

/-- What `obs_data` shows while BUSY = 1: a free value, but that STATUS[3] reads 1 (R212, log entries 4 and 13). -/
def obsWhileBusy (sel : BitVec 3) (read : Nat) (s : State) : Word :=
  if sel = 0#3 then Config.freeObs s.draws read sel ||| 0x00000008#32 else Config.freeObs s.draws read sel

/-- `obs_data` at the `read`-th read of a clock period (R155): the reset values while rst = 1 (R202; log entry 5), free while
BUSY = 1, else the register. -/
def obsData (p : Pins) (read : Nat) (s : State) : Word :=
  if p.rst then obsValue p.obsSel (resetEdge s)
  else if busy s then obsWhileBusy p.obsSel read s
  else obsValue p.obsSel s

/-- `cmd_ready` = (rst = 0) and (BUSY = 0) (R38). -/
def cmdReady (p : Pins) (s : State) : Bool := !p.rst && !busy s

/-- `digest` = RESULT (R39); 0 while rst = 1 (R202), free while BUSY = 1 (R212). -/
def digestPort (p : Pins) (read : Nat) (s : State) : Word :=
  if p.rst then 0x00000000#32
  else if busy s then Config.freeDigest s.draws read
  else s.result

/-- `digest_valid` = DONE and (BUSY = 0) (R38); 0 while rst = 1 (R202). -/
def digestValid (p : Pins) (s : State) : Bool := !p.rst && (doneFlag s && !busy s)

/-- `err` = ERR and (BUSY = 0) (R38, R40); 0 while rst = 1 (R202). -/
def errPort (p : Pins) (s : State) : Bool := !p.rst && (errFlag s && !busy s)

/-- `irq` = IRQ (R38, R180); 0 while rst = 1 (R202). -/
def irqPort (p : Pins) (s : State) : Bool := !p.rst && irqFlag s

end Sys2Proof.Machine
end

