-- ==== Sys2Proof/Safety.lean ====
section
/-! DEFINITION. What counts as a sound state and a safe use of the block: the invariants of spec/10_state.md R37, the range of the
in-flight count (R31), and the host's obligations (spec/70_reset_and_hazards.md R210, R212, R215). -/

namespace Sys2Proof.Machine

/-- The invariants of R37, in its order. -/
abbrev SeqInvariant (s : State) : Prop :=
  stateUnused s.state = false ∧
  (s.state = .blocks → 0 < s.cnt.toNat) ∧
  (s.state = .tailWait → s.cnt = 0#30 ∧ s.rem ≠ 0#2) ∧
  (s.state = .finWait ∨ s.state = .done → s.cnt = 0#30) ∧
  (s.state = .idle → s.cnt = 0#30 ∧ s.rem = 0#2) ∧
  (s.cause ≠ .none ↔ s.state = .error) ∧
  (s.cause = .none → s.errOp = 0x0#4) ∧
  s.cnt.toNat ≤ (s.len >>> 2).toNat

/-- While BUSY = 1 at least one edge remains until the effect lands, and fewer than the command's latency (R31, R211). -/
abbrev FlightInvariant (s : State) : Prop :=
  match s.inflight with
  | none => True
  | some c => 1 ≤ c.edgesLeft ∧ c.edgesLeft < latencyOf c.command s

/-- `k` rising edges one after another, stopping at a fault or a refusal: the interface's run of `core`, on this file's types. -/
def runClock : Nat → State → Host.Outcome State Fault Refusal
  | 0, s => .next s
  | k + 1, s =>
    match step s with
    | .next t => runClock k t
    | .fault r => .fault r
    | .refused r => .refused r

/-- The host's obligation between two clock periods (R210): a command that waits (cmd_valid = 1 while cmd_ready = 0) is held
unchanged, or withdrawn. -/
def holdsWaitingCommand (p next : Pins) (s : State) : Bool :=
  !(p.cmdValid && !cmdReady p s && next.cmdValid) || decide (portWord next = portWord p)

/-- The host may rely on a value it reads in this clock period (R212). -/
def readsAreDefined (p : Pins) (s : State) : Bool := p.rst || !busy s

/-- The host may take `digest` as the digest of the last run (R39, R215). -/
def digestIsCurrent (p : Pins) (s : State) : Bool := digestValid p s

end Sys2Proof.Machine
end

