-- ==== Sys2Proof/Certificates/Slice0/Obligations.lean ====
section
/-! DEFINITION. The statements for the provers. Each docstring names the rule of spec/ it formalises; `s` ranges over every state,
those no run reaches included, except where a premise says otherwise. -/

open Sys2Proof Sys2Proof.Machine

/-! ### What the statements themselves need -/

/-- The argument bits the command of an opcode consumes (R83). -/
def Sys2Proof.Claims.consumedBits (op : Opcode) : Word :=
  if op = 0x1#4 ∨ op = 0x2#4 ∨ op = 0x8#4 then 0xFFFFFFFF#32
  else if op = 0x5#4 then 0x000000FF#32
  else if op = 0x6#4 then 0x0000FFFF#32
  else if op = 0x7#4 then 0x00FFFFFF#32
  else if op = 0xA#4 then 0x00000003#32
  else 0x00000000#32

/-- The row of R175's table for an opcode and REM: the cells IDLE, BLOCKS, TAILWAIT, FINWAIT, DONE, ERROR, 6, 7. -/
def Sys2Proof.Claims.errorRow (op : Opcode) (rem : BitVec 2) : List Verdict :=
  if op = 0x0#4 ∨ op = 0x1#4 ∨ op = 0x8#4 ∨ op = 0x9#4 ∨ op = 0xA#4 then
    [.run, .run, .run, .run, .run, .run, .raise .internal, .raise .internal]
  else if op = 0x2#4 then
    [.raise .notStarted, .run, .raise .blockOverrun, .raise .blockOverrun, .raise .alreadyDone, .drop,
      .raise .internal, .raise .internal]
  else if op = 0x3#4 then
    [.raise .notStarted, .raise .finishEarly, .raise .finishEarly, .run, .raise .alreadyDone, .drop,
      .raise .internal, .raise .internal]
  else if op = 0x5#4 ∨ op = 0x6#4 ∨ op = 0x7#4 then
    [.raise .notStarted, .raise .tailEarly,
      if op.toNat - 4 = rem.toNat then .run else .raise .tailUnexpected,
      .raise .tailUnexpected, .raise .alreadyDone, .drop, .raise .internal, .raise .internal]
  else
    [.raise .illegalOp, .raise .illegalOp, .raise .illegalOp, .raise .illegalOp, .raise .illegalOp, .drop,
      .raise .internal, .raise .internal]

/-- The state after a digest run of the bytes (R143), every register: what is not named is as in `s`. -/
def Sys2Proof.Claims.afterRun (bytes : List Byte) (s : State) : State :=
  { s with
    acc := digest bytes, result := digest bytes, len := BitVec.ofNat 32 bytes.length, cnt := 0#30,
    rem := BitVec.ofNat 2 bytes.length, state := .done, cause := .none, errOp := 0x0#4 }

/-- The number of edges of a canonical command sequence presented without gaps (R216). -/
def Sys2Proof.Claims.runEdges (lat : Latencies) (n : Nat) : Nat :=
  if n = 0 then lat.init
  else lat.init + (n / 4) * lat.block + (if n % 4 ≠ 0 then lat.tail else 0) + lat.finish

/-- A line of assembly encodes the one word with this op and arg where its operands are in range, and is refused elsewhere (R89). -/
def Sys2Proof.Claims.encodesWhen (line : AsmLine) (inRange : Prop) (op arg : Nat) : Prop :=
  (inRange → ∃ w, assemble line = some [w] ∧ w.toNat = op * 2 ^ 32 + arg) ∧ (¬ inRange → assemble line = none)

/-- INIT and CLEAR, the commands that leave ERROR (R177, R178). -/
def Sys2Proof.Claims.leavesError : Instr → Bool
  | .init _ | .clear => true
  | .nop | .block _ _ _ _ | .finish | .tail1 _ | .tail2 _ _ | .tail3 _ _ _ | .setacc _ | .config _ _ => false
  | .reserved4 | .reservedB | .reservedC | .reservedD | .reservedE | .reservedF => false

/-! ### Encoding -/

/-- R80, R82, R83, R89: decoding what the encoder writes gives the command back, with every operand at every value. -/
def Obligations.DecodeInvertsEncode : Prop := ∀ i : Instr, decode (encode i) = i

/-- R83, R85: encoding what a word decodes to gives the word with its ignored argument bits cleared, and no other bit lost. -/
def Obligations.EncodeDecodeClearsOnlyIgnoredBits : Prop :=
  ∀ (op : Opcode) (arg : Word),
    encode (decode (commandWord op arg)) = commandWord op (arg &&& Claims.consumedBits op)

/-- R88: decoding is total, and op alone selects the command: the decoded command's opcode is the word's. -/
def Obligations.DecodeSelectsByOpcode : Prop := ∀ w : CommandWord, (decode w).opcode = opcodeOf w

/-- R85: two commands that differ only in ignored argument bits decode to one command, and have identical effects at the port:
the edge that samples the one does what the edge that samples the other does. -/
def Obligations.IgnoredArgumentBitsHaveNoEffect : Prop :=
  ∀ (op : Opcode) (a b : Word) (s : State) (valid : Bool) (sel : BitVec 3) (rest : List Pins),
    a &&& Claims.consumedBits op = b &&& Claims.consumedBits op →
      decode (commandWord op a) = decode (commandWord op b) ∧
      step { s with pins := ⟨false, valid, op, a, sel⟩ :: rest } = step { s with pins := ⟨false, valid, op, b, sel⟩ :: rest }

/-- R82, R89 and the words of spec/95_test_vectors.md: what each of these words decodes to. -/
def Obligations.SpecWordsDecode : Prop :=
  decode 0x000000000#36 = .nop ∧ decode 0x10000000D#36 = .init 13#32 ∧
  decode 0x26C6C6548#36 = .block 0x48#8 0x65#8 0x6C#8 0x6C#8 ∧ decode 0x300000000#36 = .finish ∧
  decode 0x400000000#36 = .reserved4 ∧ decode 0x5FFFFFF80#36 = .tail1 0x80#8 ∧
  decode 0x600006873#36 = .tail2 0x73#8 0x68#8 ∧ decode 0x700636261#36 = .tail3 0x61#8 0x62#8 0x63#8 ∧
  decode 0x812345678#36 = .setacc 0x12345678#32 ∧ decode 0x900000000#36 = .clear ∧
  decode 0xA00000001#36 = .config true false ∧ decode 0xF00000000#36 = .reservedF

/-! ### The step -/

/-- R210, R211 and the model's own convention for the free-value counter and the input list (log entries 2 and 4): a command
presented to a block that is not busy, with latency 1, is executed at that edge; a command in flight is executed at its last
busy edge. Around `exec` the step only moves the inputs and the counter on (`advance`) and ends the flight. -/
def Obligations.StepRunsDecodedCommand : Prop :=
  ∀ s : State, (currentPins s).rst = false →
    (busy s = false → (currentPins s).cmdValid = true → latencyOf (decode (portWord (currentPins s))) s ≤ 1 →
      step s = exec (decode (portWord (currentPins s))) { s with pins := s.pins.tail, draws := s.draws + 1 }) ∧
    (∀ c, s.inflight = some c → c.edgesLeft ≤ 1 →
      step s = exec c.command { s with inflight := none, pins := s.pins.tail, draws := s.draws + 1 })

/-- Log entry 3 (the model's convention): the instruction that the decoder reads from a bit string is the one that the next step
runs after it is placed. -/
def Obligations.PlacedCommandRunsNext : Prop :=
  ∀ (s : State) (nbits w : Nat) (i : Instr), decodeTableWord nbits w = some i →
    step (s.withFetchWord nbits w) =
      exec i { s with inflight := none, lat := Latencies.singleCycle, draws := s.draws + 1 }

/-- R211 and the model's own reading and fields (log entries 2, 4 and 14): a command of latency L accepted at e0 has its whole
effect at edge e(L-1), and no other effect of the L edges is visible: for every choice of the latencies, and whatever the host
presents meanwhile, L steps are one atomic `exec`. Strictly between, BUSY = 1 and cmd_ready = 0; that every register holds there is
log entry 14, an inference (D21 lets an implementation update registers over several cycles). At the end BUSY = 0. What `advance`
moves, the input list and the counter of the free values, is log entries 2 and 4. -/
def Obligations.LatencyRefinesAtomicCommand : Prop :=
  ∀ (s : State) (i : Instr) (L : Nat),
    busy s = false → (currentPins s).cmdValid = true → decode (portWord (currentPins s)) = i →
    L = latencyOf i s → 1 ≤ L → (∀ p ∈ s.pins.take L, p.rst = false) →
      runClock L s = exec i (advance^[L] s) ∧
      (∀ k, 1 ≤ k → k < L →
        runClock k s = .next { advance^[k] s with inflight := some ⟨i, L - k⟩ } ∧
        ∀ p, cmdReady p { advance^[k] s with inflight := some ⟨i, L - k⟩ } = false) ∧
      (∀ t, runClock L s = .next t → busy t = false)

/-- R214: the latency of every command in every state, by R175's table: the command's own latency where it executes, LAT_CTRL where
it raises or is dropped. -/
def Obligations.LatencyByCommand : Prop :=
  ∀ (i : Instr) (s : State),
    latencyOf i s =
      if (Claims.errorRow i.opcode s.rem).getD (stateCode s.state).toNat .run = .run then
        (if i.opcode = 0x1#4 then s.lat.init
        else if i.opcode = 0x2#4 then s.lat.block
        else if i.opcode = 0x5#4 ∨ i.opcode = 0x6#4 ∨ i.opcode = 0x7#4 then s.lat.tail
        else if i.opcode = 0x3#4 then s.lat.finish
        else s.lat.ctrl)
      else s.lat.ctrl

/-- R69: with every latency 1, commands presented one an edge are executed in order, each exactly once and each on the state the
one before left. What `advance` moves is the model's own (log entries 2 and 4). -/
def Obligations.CommandStreamRunsInOrder : Prop :=
  ∀ (commands : List Instr) (s : State) (rest : List Pins),
    s.lat = Latencies.singleCycle → busy s = false →
    s.pins = commands.map (fun i => presentWord (encode i)) ++ rest →
      runClock commands.length s = runCommands commands (advance^[commands.length] s)

/-- R200, R203: a reset edge leaves exactly the reset state, whatever came before: a command in flight is abandoned and a command
presented on that edge is not accepted. The model's own fields are kept or move on as at every edge (log entries 1, 2 and 4). -/
def Obligations.ResetWinsOverEveryCommand : Prop :=
  ∀ s : State, (currentPins s).rst = true →
    cmdReady (currentPins s) s = false ∧ step s = .next (State.resetWith s.lat s.pins.tail (s.draws + 1))

/-- R201: the reset values, of every register, of the derived bits, of STATUS and of ID. -/
def Obligations.ResetGivesEveryRegisterItsValue : Prop :=
  (∃ lat pins draws, State.reset = State.resetWith lat pins draws) ∧
  ∀ (lat : Latencies) (pins : List Pins) (draws : Nat),
    let r := State.resetWith lat pins draws
    r.len = 0x00000000#32 ∧ r.acc = 0x00000000#32 ∧ r.cnt = 0#30 ∧ r.rem = 0#2 ∧ r.state = .idle ∧
    r.result = 0x00000000#32 ∧ r.cause = .none ∧ r.errOp = 0#4 ∧ r.ieDone = false ∧ r.ieErr = false ∧
    busy r = false ∧ doneFlag r = false ∧ errFlag r = false ∧ irqFlag r = false ∧
    obsValue 0#3 r = 0x00000000#32 ∧ obsValue 5#3 r = 0x53464831#32

/-- R190: at an edge without reset and without a command, a block that is not busy holds every register; the model's own
input list and counter move on (log entries 2 and 4). -/
def Obligations.QuietEdgeHoldsState : Prop :=
  ∀ s : State, (currentPins s).rst = false → (currentPins s).cmdValid = false → busy s = false →
    step s = .next { s with pins := s.pins.tail, draws := s.draws + 1 }

/-- R210, R38: what stands on cmd_op and cmd_arg has no effect on an edge where no command is accepted, so a command withdrawn
before its acceptance changes no state; neither has obs_sel (R67). -/
def Obligations.UnacceptedCommandHasNoEffect : Prop :=
  ∀ (s : State) (p q : Pins) (rest : List Pins), p.rst = q.rst →
    (p.cmdValid && cmdReady p s) = false → (q.cmdValid && cmdReady q s) = false →
      step { s with pins := p :: rest } = step { s with pins := q :: rest }

/-- R170: no command and no edge stops the machine: every exception is a next state. -/
def Obligations.EveryEdgeAndCommandCompletes : Prop :=
  (∀ (i : Instr) (s : State), ∃ t, exec i s = .next t) ∧ (∀ s : State, ∃ t, step s = .next t)

/-- R41 and log entries 1, 2 and 4: no step changes the latencies; each uses up one edge of the host's inputs and one draw. -/
def Obligations.StepKeepsParameters : Prop :=
  ∀ s t : State, step s = .next t → t.lat = s.lat ∧ t.pins = s.pins.tail ∧ t.draws = s.draws + 1

/-! ### The output ports -/

/-- R202: while rst = 1 the outputs and the observation port show the reset state, and after the reset edge a command can be
accepted at the first edge with rst = 0. -/
def Obligations.OutputsShowResetWhileReset : Prop :=
  ∀ (p : Pins) (read : Nat) (s : State), p.rst = true →
    cmdReady p s = false ∧ digestPort p read s = 0#32 ∧ digestValid p s = false ∧ errPort p s = false ∧
    irqPort p s = false ∧ obsData p read s = obsValue p.obsSel State.reset ∧
    (∀ u t : State, (currentPins u).rst = true → step u = .next t → ∀ q : Pins, q.rst = false → cmdReady q t = true)

/-- R212 and log entries 4, 5 and 13: while BUSY = 1 (and rst = 0), STATUS[3] reads 1, every other bit of every observation value
and `digest` are free values, and digest_valid, err and irq are 0. -/
def Obligations.OutputsWhileBusy : Prop :=
  ∀ (p : Pins) (read : Nat) (s : State), p.rst = false → busy s = true →
    (p.obsSel = 0#3 → (obsData p read s).getLsbD 3 = true) ∧
    (∀ k, (p.obsSel = 0#3 → k ≠ 3) →
      (obsData p read s).getLsbD k = (Config.freeObs s.draws read p.obsSel).getLsbD k) ∧
    digestPort p read s = Config.freeDigest s.draws read ∧
    digestValid p s = false ∧ errPort p s = false ∧ irqPort p s = false ∧ cmdReady p s = false

/-- R38, R39, R40, R70: while BUSY = 0 (and rst = 0) the outputs are those of the registers: `digest` is RESULT, digest_valid is
DONE, err is ERR, irq is IRQ, and `obs_data` the selected register. -/
def Obligations.OutputsWhenNotBusy : Prop :=
  ∀ (p : Pins) (read : Nat) (s : State), p.rst = false → busy s = false →
    cmdReady p s = true ∧ digestPort p read s = s.result ∧ (digestValid p s = true ↔ s.state = .done) ∧
    (errPort p s = true ↔ s.state = .error) ∧
    (irqPort p s = true ↔ (s.state = .done ∧ s.ieDone = true) ∨ (s.state = .error ∧ s.ieErr = true)) ∧
    obsData p read s = obsValue p.obsSel s

/-- R34: the observation map; and no write path goes through the port, since no edge depends on the selector. -/
def Obligations.ObservationMap : Prop :=
  ∀ s : State,
    obsValue 0#3 s = statusWord s ∧ obsValue 1#3 s = s.acc ∧ obsValue 2#3 s = s.len ∧
    (obsValue 3#3 s).toNat = s.cnt.toNat ∧ obsValue 4#3 s = s.result ∧ obsValue 5#3 s = 0x53464831#32 ∧
    obsValue 6#3 s = 0x00000000#32 ∧ obsValue 7#3 s = 0x00000000#32 ∧
    (∀ (p : Pins) (sel : BitVec 3) (rest : List Pins),
      step { s with pins := { p with obsSel := sel } :: rest } = step { s with pins := p :: rest })

/-- R35: every field of STATUS, the reserved ones zero. -/
def Obligations.StatusFields : Prop :=
  ∀ s : State,
    (statusWord s).extractLsb' 0 3 = stateCode s.state ∧
    ((statusWord s).getLsbD 3 = true ↔ busy s = true) ∧
    ((statusWord s).getLsbD 4 = true ↔ s.state = .done) ∧
    ((statusWord s).getLsbD 5 = true ↔ s.state = .error) ∧
    (statusWord s).extractLsb' 6 2 = 0#2 ∧
    (statusWord s).extractLsb' 8 4 = causeCode s.cause ∧
    (statusWord s).extractLsb' 12 4 = s.errOp ∧
    (statusWord s).extractLsb' 16 2 = s.rem ∧
    (statusWord s).extractLsb' 18 2 = 0#2 ∧
    (statusWord s).getLsbD 20 = s.ieDone ∧
    (statusWord s).getLsbD 21 = s.ieErr ∧
    (statusWord s).getLsbD 22 = irqFlag s ∧
    (statusWord s).extractLsb' 23 9 = 0#9 ∧
    statusWord State.reset = 0x00000000#32

/-- R180, R182: the interrupt level, its two sources never together, and the port that carries it. -/
def Obligations.InterruptLevel : Prop :=
  ∀ s : State,
    (irqFlag s = true ↔
      busy s = false ∧ ((s.state = .done ∧ s.ieDone = true) ∨ (s.state = .error ∧ s.ieErr = true))) ∧
    ¬ (doneFlag s = true ∧ errFlag s = true) ∧
    (∀ p : Pins, p.rst = false → irqPort p s = irqFlag s)

/-! ### The datapath -/

/-- R100-R103 as integers: every sum and left shift is reduced modulo 2^32, every right shift is a floor. -/
def Obligations.PrimitivesAreModular : Prop :=
  ∀ (a x : Word) (k : Nat),
    (add a x).toNat = (a.toNat + x.toNat) % 2 ^ 32 ∧
    (xshl a k).toNat = a.toNat ^^^ (a.toNat * 2 ^ k % 2 ^ 32) ∧
    (ashr a k).toNat = (a.toNat + a.toNat / 2 ^ k) % 2 ^ 32 ∧
    (xin a x).toNat = a.toNat ^^^ x.toNat

/-- R105: the word loader is little-endian and zero-extends, and on a command's lanes it is a plain field of the argument. -/
def Obligations.WordLoaderIsLittleEndian : Prop :=
  (∀ b0 b1 : Byte, (load16 b0 b1).toNat = b0.toNat + 2 ^ 8 * b1.toNat ∧ (load16 b0 b1).toNat ≤ 0xFFFF) ∧
  (∀ arg : Word, load16 (lane 0 arg) (lane 1 arg) = (arg.extractLsb' 0 16).setWidth 32 ∧
    load16 (lane 2 arg) (lane 3 arg) = (arg.extractLsb' 16 16).setWidth 32)

/-- R104, R106, R111: the two operands that are shifted lose no bit. -/
def Obligations.ShiftedOperandsLoseNoBit : Prop :=
  (∀ b0 b1 : Byte, (blockXorIn (load16 b0 b1)).toNat = (load16 b0 b1).toNat * 2 ^ 11) ∧
  (∀ b2 : Byte, (tail3XorIn b2).toNat = b2.toNat * 2 ^ 18)

/-- R107: ROUND is a chain of the primitives. -/
def Obligations.RoundIsPrimitiveChain : Prop :=
  ∀ (acc : Word) (lo16 hi16 : Half),
    blockRound acc (zext32 lo16) (zext32 hi16) =
      ashr (xin (xshl (add acc (zext32 lo16)) 16) (zext32 hi16 <<< 11)) 11

/-- R108-R113: the four paths of the tail multiplexer, each by the primitives its rule names: path 0 is the identity, path 3 has
ROUND's shape. A byte at or beyond position k does not stand in path k's value, so it is no input to it. -/
def Obligations.TailMultiplexerPaths : Prop :=
  ∀ (acc : Word) (b0 b1 b2 : Byte),
    tailMix acc 0#2 b0 b1 b2 = acc ∧
    tailMix acc 1#2 b0 b1 b2 = ashr (xshl (add acc (zext32 b0)) 10) 1 ∧
    tailMix acc 2#2 b0 b1 b2 = ashr (xshl (add acc (load16 b0 b1)) 11) 17 ∧
    tailMix acc 3#2 b0 b1 b2 = ashr (xin (xshl (add acc (load16 b0 b1)) 16) (zext32 b2 <<< 18)) 11

/-- R120: Digest by the offsets the rule writes: block i is the bytes 4i to 4i+3, the tail starts at 4 * (n >> 2). -/
def Obligations.DigestByOffsets : Prop :=
  ∀ bytes : List Byte, bytes.length < 2 ^ 32 →
    digest bytes =
      if bytes.length = 0 then 0#32
      else
        let n := bytes.length
        let p := 4 * (n / 4)
        avalanche (tailMix
          ((List.range (n / 4)).foldl (fun acc i => blockRound acc
            (load16 (bytes.getD (4 * i) 0) (bytes.getD (4 * i + 1) 0))
            (load16 (bytes.getD (4 * i + 2) 0) (bytes.getD (4 * i + 3) 0))) (BitVec.ofNat 32 n))
          (BitVec.ofNat 2 (n % 4)) (bytes.getD p 0) (bytes.getD (p + 1) 0) (bytes.getD (p + 2) 0))

/-- R121: the digest of the empty sequence is 0, and the generic path would give 0 too. -/
def Obligations.EmptyDigestIsZero : Prop :=
  digest [] = 0#32 ∧ avalanche 0#32 = 0#32 ∧ ∀ b0 b1 b2 : Byte, avalanche (tailMix 0#32 0#2 b0 b1 b2) = 0#32

/-! ### The digest commands -/

/-- R131: INIT, in every state, and the flags that follow. -/
def Obligations.InitStartsRun : Prop :=
  ∀ (n : Word) (s : State),
    decode (commandWord 0x1#4 n) = .init n ∧
    (stateUnused s.state = true →
      exec (.init n) s = .next { s with state := .error, cause := .internal, errOp := 0x1#4 }) ∧
    (stateUnused s.state = false → n.toNat = 0 →
      exec (.init n) s = .next { s with
        cause := .none, errOp := 0x0#4, acc := 0#32, len := 0#32, cnt := 0#30, rem := 0#2, result := 0#32,
        state := .done }) ∧
    (stateUnused s.state = false → n.toNat ≠ 0 →
      exec (.init n) s = .next { s with
        cause := .none, errOp := 0x0#4, acc := n, len := n, cnt := BitVec.ofNat 30 (n.toNat / 4),
        rem := BitVec.ofNat 2 (n.toNat % 4),
        state := if 0 < n.toNat / 4 then .blocks else .tailWait }) ∧
    (∀ t, stateUnused s.state = false → exec (.init n) s = .next t →
      (doneFlag t = true ↔ n.toNat = 0) ∧ errFlag t = false ∧
      (busy s = false → (irqFlag t = true ↔ n.toNat = 0 ∧ s.ieDone = true)))

/-- R132 with R106, R84: BLOCK, in every state. In BLOCKS the premise CNT > 0 is R37's invariant 2. -/
def Obligations.BlockConsumesFourBytes : Prop :=
  ∀ (arg : Word) (s : State),
    let i := decode (commandWord 0x2#4 arg)
    let lo16 : Word := (arg.extractLsb' 0 16).setWidth 32
    let hi16 : Word := (arg.extractLsb' 16 16).setWidth 32
    let a1 := s.acc + lo16
    let temp := (hi16 <<< 11) ^^^ a1
    let a2 := (a1 <<< 16) ^^^ temp
    i = .block (arg.extractLsb' 0 8) (arg.extractLsb' 8 8) (arg.extractLsb' 16 8) (arg.extractLsb' 24 8) ∧
    (s.state = .blocks → 0 < s.cnt.toNat →
      exec i s = .next { s with
        acc := a2 + (a2 >>> 11), cnt := BitVec.ofNat 30 (s.cnt.toNat - 1),
        state := if s.cnt.toNat - 1 = 0 then (if s.rem ≠ 0#2 then .tailWait else .finWait) else .blocks }) ∧
    (s.state = .idle → exec i s = .next { s with state := .error, cause := .notStarted, errOp := 0x2#4 }) ∧
    (s.state = .tailWait ∨ s.state = .finWait →
      exec i s = .next { s with state := .error, cause := .blockOverrun, errOp := 0x2#4 }) ∧
    (s.state = .done → exec i s = .next { s with state := .error, cause := .alreadyDone, errOp := 0x2#4 }) ∧
    (s.state = .error → exec i s = .next s) ∧
    (stateUnused s.state = true → exec i s = .next { s with state := .error, cause := .internal, errOp := 0x2#4 })

/-- R133 with R109: TAIL1, in every state. -/
def Obligations.TailOneConsumesOneByte : Prop :=
  ∀ (arg : Word) (s : State),
    let i := decode (commandWord 0x5#4 arg)
    let a1 := s.acc + (arg.extractLsb' 0 8).setWidth 32
    let a2 := a1 ^^^ (a1 <<< 10)
    i = .tail1 (arg.extractLsb' 0 8) ∧
    (s.state = .tailWait → s.rem = 1#2 → exec i s = .next { s with acc := a2 + (a2 >>> 1), state := .finWait }) ∧
    (s.state = .idle → exec i s = .next { s with state := .error, cause := .notStarted, errOp := 0x5#4 }) ∧
    (s.state = .blocks → exec i s = .next { s with state := .error, cause := .tailEarly, errOp := 0x5#4 }) ∧
    ((s.state = .tailWait ∧ s.rem ≠ 1#2) ∨ s.state = .finWait →
      exec i s = .next { s with state := .error, cause := .tailUnexpected, errOp := 0x5#4 }) ∧
    (s.state = .done → exec i s = .next { s with state := .error, cause := .alreadyDone, errOp := 0x5#4 }) ∧
    (s.state = .error → exec i s = .next s) ∧
    (stateUnused s.state = true → exec i s = .next { s with state := .error, cause := .internal, errOp := 0x5#4 })

/-- R134 with R110: TAIL2, in every state. -/
def Obligations.TailTwoConsumesTwoBytes : Prop :=
  ∀ (arg : Word) (s : State),
    let i := decode (commandWord 0x6#4 arg)
    let a1 := s.acc + (arg.extractLsb' 0 16).setWidth 32
    let a2 := a1 ^^^ (a1 <<< 11)
    i = .tail2 (arg.extractLsb' 0 8) (arg.extractLsb' 8 8) ∧
    (s.state = .tailWait → s.rem = 2#2 → exec i s = .next { s with acc := a2 + (a2 >>> 17), state := .finWait }) ∧
    (s.state = .idle → exec i s = .next { s with state := .error, cause := .notStarted, errOp := 0x6#4 }) ∧
    (s.state = .blocks → exec i s = .next { s with state := .error, cause := .tailEarly, errOp := 0x6#4 }) ∧
    ((s.state = .tailWait ∧ s.rem ≠ 2#2) ∨ s.state = .finWait →
      exec i s = .next { s with state := .error, cause := .tailUnexpected, errOp := 0x6#4 }) ∧
    (s.state = .done → exec i s = .next { s with state := .error, cause := .alreadyDone, errOp := 0x6#4 }) ∧
    (s.state = .error → exec i s = .next s) ∧
    (stateUnused s.state = true → exec i s = .next { s with state := .error, cause := .internal, errOp := 0x6#4 })

/-- R135 with R111: TAIL3, in every state. -/
def Obligations.TailThreeConsumesThreeBytes : Prop :=
  ∀ (arg : Word) (s : State),
    let i := decode (commandWord 0x7#4 arg)
    let b2 : Word := (arg.extractLsb' 16 8).setWidth 32
    let a1 := s.acc + (arg.extractLsb' 0 16).setWidth 32
    let a2 := a1 ^^^ (a1 <<< 16)
    let a3 := a2 ^^^ (b2 <<< 18)
    i = .tail3 (arg.extractLsb' 0 8) (arg.extractLsb' 8 8) (arg.extractLsb' 16 8) ∧
    (s.state = .tailWait → s.rem = 3#2 → exec i s = .next { s with acc := a3 + (a3 >>> 11), state := .finWait }) ∧
    (s.state = .idle → exec i s = .next { s with state := .error, cause := .notStarted, errOp := 0x7#4 }) ∧
    (s.state = .blocks → exec i s = .next { s with state := .error, cause := .tailEarly, errOp := 0x7#4 }) ∧
    ((s.state = .tailWait ∧ s.rem ≠ 3#2) ∨ s.state = .finWait →
      exec i s = .next { s with state := .error, cause := .tailUnexpected, errOp := 0x7#4 }) ∧
    (s.state = .done → exec i s = .next { s with state := .error, cause := .alreadyDone, errOp := 0x7#4 }) ∧
    (s.state = .error → exec i s = .next s) ∧
    (stateUnused s.state = true → exec i s = .next { s with state := .error, cause := .internal, errOp := 0x7#4 })

/-- R136 with R114: FINISH, in every state, and the flags and outputs that follow. -/
def Obligations.FinishPublishesDigest : Prop :=
  ∀ (arg : Word) (s : State),
    let a1 := s.acc ^^^ (s.acc <<< 3)
    let a2 := a1 + (a1 >>> 5)
    let a3 := a2 ^^^ (a2 <<< 4)
    let a4 := a3 + (a3 >>> 17)
    let a5 := a4 ^^^ (a4 <<< 25)
    let a6 := a5 + (a5 >>> 6)
    decode (commandWord 0x3#4 arg) = .finish ∧
    (s.state = .finWait → exec .finish s = .next { s with acc := a6, result := a6, state := .done } ∧
      ∀ t, exec .finish s = .next t →
        doneFlag t = true ∧ (busy t = false → irqFlag t = t.ieDone ∧ ∀ p, p.rst = false → digestValid p t = true)) ∧
    (s.state = .idle → exec .finish s = .next { s with state := .error, cause := .notStarted, errOp := 0x3#4 }) ∧
    (s.state = .blocks ∨ s.state = .tailWait →
      exec .finish s = .next { s with state := .error, cause := .finishEarly, errOp := 0x3#4 }) ∧
    (s.state = .done → exec .finish s = .next { s with state := .error, cause := .alreadyDone, errOp := 0x3#4 }) ∧
    (s.state = .error → exec .finish s = .next s) ∧
    (stateUnused s.state = true →
      exec .finish s = .next { s with state := .error, cause := .internal, errOp := 0x3#4 })

/-! ### The control commands and the reserved opcodes -/

/-- R150: NOP changes nothing in any state 0-5, whatever its argument; and when a command can be accepted, the one before it has
completed. -/
def Obligations.NopChangesNothing : Prop :=
  ∀ (arg : Word) (s : State),
    decode (commandWord 0x0#4 arg) = .nop ∧
    (stateUnused s.state = false → exec .nop s = .next s) ∧
    (stateUnused s.state = true →
      exec .nop s = .next { s with state := .error, cause := .internal, errOp := 0x0#4 }) ∧
    (∀ p, cmdReady p s = true → s.inflight = none)

/-- R151: SETACC writes ACC and nothing else, in every state 0-5. -/
def Obligations.SetaccWritesOnlyAccumulator : Prop :=
  ∀ (v : Word) (s : State),
    decode (commandWord 0x8#4 v) = .setacc v ∧
    (stateUnused s.state = false → exec (.setacc v) s = .next { s with acc := v }) ∧
    (stateUnused s.state = true →
      exec (.setacc v) s = .next { s with state := .error, cause := .internal, errOp := 0x8#4 })

/-- R152: CLEAR goes to IDLE from every state 0-5 and keeps ACC, LEN, RESULT and the enables; DONE, ERR and IRQ become 0. -/
def Obligations.ClearGoesToIdle : Prop :=
  ∀ (arg : Word) (s : State),
    decode (commandWord 0x9#4 arg) = .clear ∧
    (stateUnused s.state = false →
      exec .clear s = .next { s with state := .idle, cnt := 0#30, rem := 0#2, cause := .none, errOp := 0x0#4 } ∧
      ∀ t, exec .clear s = .next t → doneFlag t = false ∧ errFlag t = false ∧ irqFlag t = false) ∧
    (stateUnused s.state = true →
      exec .clear s = .next { s with state := .error, cause := .internal, errOp := 0x9#4 })

/-- R153: CONFIG writes the two enables from arg[0] and arg[1] and nothing else, in every state 0-5; IRQ follows at once. -/
def Obligations.ConfigWritesOnlyEnables : Prop :=
  ∀ (arg : Word) (s : State),
    let i := decode (commandWord 0xA#4 arg)
    i = .config (arg.getLsbD 0) (arg.getLsbD 1) ∧
    (stateUnused s.state = false →
      exec i s = .next { s with ieDone := arg.getLsbD 0, ieErr := arg.getLsbD 1 } ∧
      ∀ t, exec i s = .next t → busy s = false →
        (irqFlag t = true ↔ (s.state = .done ∧ arg.getLsbD 0 = true) ∨ (s.state = .error ∧ arg.getLsbD 1 = true))) ∧
    (stateUnused s.state = true → exec i s = .next { s with state := .error, cause := .internal, errOp := 0xA#4 })

/-- R154: the six reserved opcodes, with any argument, in every state. -/
def Obligations.ReservedOpcodesRaiseIllegalOp : Prop :=
  ∀ (op : Opcode) (arg : Word) (s : State), op ∈ [0x4#4, 0xB#4, 0xC#4, 0xD#4, 0xE#4, 0xF#4] →
    let i := decode (commandWord op arg)
    i ∈ [Instr.reserved4, .reservedB, .reservedC, .reservedD, .reservedE, .reservedF] ∧
    (stateUnused s.state = false → s.state ≠ .error →
      exec i s = .next { s with state := .error, cause := .illegalOp, errOp := op }) ∧
    (s.state = .error → exec i s = .next s) ∧
    (stateUnused s.state = true → exec i s = .next { s with state := .error, cause := .internal, errOp := op })

/-- R154 for the constructors: each reserved opcode completes with its error entry in every state 0-4. -/
def Obligations.EachReservedOpcodeEntersError : Prop :=
  ∀ s : State, stateUnused s.state = false → s.state ≠ .error →
    exec .reserved4 s = .next { s with state := .error, cause := .illegalOp, errOp := 0x4#4 } ∧
    exec .reservedB s = .next { s with state := .error, cause := .illegalOp, errOp := 0xB#4 } ∧
    exec .reservedC s = .next { s with state := .error, cause := .illegalOp, errOp := 0xC#4 } ∧
    exec .reservedD s = .next { s with state := .error, cause := .illegalOp, errOp := 0xD#4 } ∧
    exec .reservedE s = .next { s with state := .error, cause := .illegalOp, errOp := 0xE#4 } ∧
    exec .reservedF s = .next { s with state := .error, cause := .illegalOp, errOp := 0xF#4 }

/-! ### Protocol errors -/

/-- R175: the whole table: which command raises which cause, is dropped, or executes in each state; a command that executes
records no error. -/
def Obligations.ErrorTable : Prop :=
  ∀ (i : Instr) (s : State),
    match (Claims.errorRow i.opcode s.rem).getD (stateCode s.state).toNat .run with
    | .raise c => exec i s = .next { s with state := .error, cause := c, errOp := i.opcode }
    | .drop => exec i s = .next s
    | .run => ∃ t, exec i s = .next t ∧ (t.state = .error → s.state = .error ∧ t.cause = s.cause ∧ t.errOp = s.errOp)

/-- R173, R174: a command that enters ERROR from another state changes STATE, CAUSE and ERR_OP and nothing else: CAUSE is 1..8,
ERR_OP the command's opcode; then ERR = 1, DONE = 0 and, while not busy, err = 1 and IRQ = IE_ERR. -/
def Obligations.ErrorsArePrecise : Prop :=
  ∀ (i : Instr) (s t : State), exec i s = .next t → s.state ≠ .error → t.state = .error →
    t = { s with state := .error, cause := t.cause, errOp := i.opcode } ∧
    1 ≤ (causeCode t.cause).toNat ∧ (causeCode t.cause).toNat ≤ 8 ∧
    errFlag t = true ∧ doneFlag t = false ∧
    (busy t = false → irqFlag t = t.ieErr ∧ ∀ p, p.rst = false → errPort p t = true)

/-- R179: a command accepted while STATE holds 6 or 7 is not executed and raises INTERNAL. -/
def Obligations.UnusedStateRaisesInternal : Prop :=
  ∀ (i : Instr) (s : State), s.state = .unused6 ∨ s.state = .unused7 →
    exec i s = .next { s with state := .error, cause := .internal, errOp := i.opcode }

/-- R177: behaviour in ERROR, of every command; a dropped command is accepted on the handshake, so the host is not stalled. -/
def Obligations.ErrorStateDropsDigestCommands : Prop :=
  ∀ s : State, s.state = .error →
    (∀ b0 b1 b2 b3 : Byte, exec (.block b0 b1 b2 b3) s = .next s) ∧
    (∀ b0 : Byte, exec (.tail1 b0) s = .next s) ∧ (∀ b0 b1 : Byte, exec (.tail2 b0 b1) s = .next s) ∧
    (∀ b0 b1 b2 : Byte, exec (.tail3 b0 b1 b2) s = .next s) ∧ exec .finish s = .next s ∧
    exec .reserved4 s = .next s ∧ exec .reservedB s = .next s ∧ exec .reservedC s = .next s ∧
    exec .reservedD s = .next s ∧ exec .reservedE s = .next s ∧ exec .reservedF s = .next s ∧
    exec .nop s = .next s ∧ (∀ v : Word, exec (.setacc v) s = .next { s with acc := v }) ∧
    (∀ d e : Bool, exec (.config d e) s = .next { s with ieDone := d, ieErr := e }) ∧
    (∀ (n : Word) (t : State), exec (.init n) s = .next t → t.state ≠ .error) ∧
    (∀ t : State, exec .clear s = .next t → t.state ≠ .error) ∧
    (busy s = false → ∀ p : Pins, p.rst = false → cmdReady p s = true)

/-- R178: the first error survives every sequence of commands without INIT and CLEAR; INIT and CLEAR leave ERROR and clear CAUSE
and ERR_OP, and so does a reset edge; an error and leaving one change no enable. -/
def Obligations.FirstErrorSurvivesUntilCleared : Prop :=
  (∀ (commands : List Instr) (s t : State), s.state = .error → (∀ i ∈ commands, Claims.leavesError i = false) →
    runCommands commands s = .next t → t.state = .error ∧ t.cause = s.cause ∧ t.errOp = s.errOp) ∧
  (∀ (i : Instr) (s t : State), s.state = .error → Claims.leavesError i = true → exec i s = .next t →
    t.state ≠ .error ∧ t.cause = .none ∧ t.errOp = 0x0#4 ∧ t.ieDone = s.ieDone ∧ t.ieErr = s.ieErr) ∧
  (∀ s t : State, (currentPins s).rst = true → step s = .next t →
    t.state = .idle ∧ t.cause = .none ∧ t.errOp = 0x0#4) ∧
  (∀ (i : Instr) (s t : State), s.state ≠ .error → exec i s = .next t → t.state = .error →
    t.ieDone = s.ieDone ∧ t.ieErr = s.ieErr)

/-! ### Frames and invariants over all commands -/

/-- R22-R30, the writers each register's rule lists: a register that a command changes is one that this command writes. The last
clause: outside the error entry, NOP, SETACC and CONFIG change no STATE (R26). -/
def Obligations.OnlyListedWritersChangeRegisters : Prop :=
  ∀ (i : Instr) (s t : State), exec i s = .next t →
    (t.len ≠ s.len → ∃ n, i = .init n) ∧
    (t.acc ≠ s.acc → i.opcode ∈ [0x1#4, 0x2#4, 0x5#4, 0x6#4, 0x7#4, 0x3#4, 0x8#4] ∧ (t.state = .error → i.opcode = 0x8#4)) ∧
    (t.cnt ≠ s.cnt → i.opcode ∈ [0x1#4, 0x2#4, 0x9#4]) ∧
    (t.rem ≠ s.rem → i.opcode ∈ [0x1#4, 0x9#4]) ∧
    (t.result ≠ s.result → i = .finish ∨ i = .init 0#32) ∧
    (t.ieDone ≠ s.ieDone ∨ t.ieErr ≠ s.ieErr → ∃ d e, i = .config d e) ∧
    (t.cause ≠ s.cause ∨ t.errOp ≠ s.errOp → t.state = .error ∨ i.opcode ∈ [0x1#4, 0x9#4]) ∧
    (i.opcode ∈ [0x0#4, 0x8#4, 0xA#4] → t.state ≠ s.state → t.cause = .internal)

/-- R67: NOP, and CONFIG and SETACC with the same argument, are idempotent: a repeat changes nothing. -/
def Obligations.ControlCommandsAreIdempotent : Prop :=
  ∀ (i : Instr) (s t : State), i = .nop ∨ (∃ v, i = .setacc v) ∨ (∃ d e, i = .config d e) →
    stateUnused s.state = false → exec i s = .next t → exec i t = .next t

/-- R37: every edge keeps the eight invariants. -/
def Obligations.StepKeepsSequencerInvariant : Prop :=
  ∀ s t : State, SeqInvariant s → step s = .next t → SeqInvariant t

/-- R37: the reset state has the eight invariants, and so has every state a reset edge leaves. -/
def Obligations.ResetHasSequencerInvariant : Prop :=
  SeqInvariant State.reset ∧ ∀ lat pins draws, SeqInvariant (State.resetWith lat pins draws)

/-- R31, R211: every edge keeps the in-flight count between 1 and the latency less 1. -/
def Obligations.StepKeepsFlightInvariant : Prop :=
  ∀ s t : State, FlightInvariant s → step s = .next t → FlightInvariant t

/-! ### Digest runs -/

/-- R142: the canonical sequence has the number of commands the rule gives, and R65: its k-th BLOCK carries the bytes 4k to 4k+3,
its tail the last n & 3 bytes, in input order; it ends with FINISH. -/
def Obligations.CanonicalSequenceCarriesBytesInOrder : Prop :=
  ∀ bytes : List Byte, bytes.length < 2 ^ 32 →
    let n := bytes.length
    let p := 4 * (n / 4)
    (canonical bytes).length = (if n = 0 then 1 else 2 + n / 4 + (if n % 4 ≠ 0 then 1 else 0)) ∧
    (canonical bytes)[0]? = some (.init (BitVec.ofNat 32 n)) ∧
    (∀ k, k < n / 4 → (canonical bytes)[k + 1]? =
      some (.block (bytes.getD (4 * k) 0) (bytes.getD (4 * k + 1) 0) (bytes.getD (4 * k + 2) 0) (bytes.getD (4 * k + 3) 0))) ∧
    (n % 4 = 1 → (canonical bytes)[n / 4 + 1]? = some (.tail1 (bytes.getD p 0))) ∧
    (n % 4 = 2 → (canonical bytes)[n / 4 + 1]? = some (.tail2 (bytes.getD p 0) (bytes.getD (p + 1) 0))) ∧
    (n % 4 = 3 → (canonical bytes)[n / 4 + 1]? =
      some (.tail3 (bytes.getD p 0) (bytes.getD (p + 1) 0) (bytes.getD (p + 2) 0))) ∧
    (n ≠ 0 → (canonical bytes).getLast? = some .finish)

/-- R143, R18: from every state 0-5 the canonical command sequence for B leaves RESULT = ACC = Digest(B) and the other registers as
the rule gives them; and after INIT and after each BLOCK, TAIL and FINISH on the way, ACC is the accumulator of Digest at the same
point, and no protocol error is recorded (R142). -/
def Obligations.CanonicalSequenceYieldsDigest : Prop :=
  ∀ (bytes : List Byte) (s : State), bytes.length < 2 ^ 32 → stateUnused s.state = false →
    runCommands (canonical bytes) s = .next (Claims.afterRun bytes s) ∧
    ∀ k, k < (canonical bytes).length →
      ∃ t, runCommands ((canonical bytes).take (k + 1)) s = .next t ∧ (digestTrace bytes)[k]? = some t.acc ∧
        t.cause = .none ∧ t.state ≠ .error

/-- R216, R143: presented on the port without gaps, with any latencies of at least 1, the canonical sequence takes exactly the
number of edges the rule gives and leaves Digest(B). The port's inputs and the counter are the model's own fields (log entries 2
and 4). -/
def Obligations.ClockedRunYieldsDigest : Prop :=
  ∀ (bytes : List Byte) (s : State) (rest : List Pins),
    bytes.length < 2 ^ 32 → stateUnused s.state = false → busy s = false → s.lat.wellFormed = true →
    s.pins = presentAll s.lat (canonical bytes) ++ rest →
      runClock (Claims.runEdges s.lat bytes.length) s =
        .next (Claims.afterRun bytes
          { s with pins := rest, draws := s.draws + Claims.runEdges s.lat bytes.length })

/-- R145: after INIT no value of the abandoned run affects the new one: from any two states 0-5, INIT and then any same commands
leave the same ACC, LEN, CNT, REM, STATE, CAUSE and ERR_OP, and the same RESULT whenever the run is finished. -/
def Obligations.NewRunForgetsAbandonedRun : Prop :=
  ∀ (n : Word) (commands : List Instr) (s s' t t' : State),
    stateUnused s.state = false → stateUnused s'.state = false →
    runCommands (.init n :: commands) s = .next t → runCommands (.init n :: commands) s' = .next t' →
      t.acc = t'.acc ∧ t.len = t'.len ∧ t.cnt = t'.cnt ∧ t.rem = t'.rem ∧ t.state = t'.state ∧
      t.cause = t'.cause ∧ t.errOp = t'.errOp ∧ (t.state = .done → t.result = t'.result)

/-- R184, R151: in FINWAIT, SETACC and then FINISH place the avalanche of any chosen value in RESULT, whatever the run carried. -/
def Obligations.SetaccThenFinishForgesResult : Prop :=
  ∀ (v : Word) (s : State), s.state = .finWait →
    ∃ t, runCommands [.setacc v, .finish] s = .next t ∧ t.result = avalanche v ∧ t.state = .done

/-- R89, R90: what each line of the assembly encodes, as numbers: every mnemonic, `.cmd` and every pseudo-instruction; and the
operands that are refused: a byte outside 0..255, a length or u32 outside 0..2^32-1, a CONFIG operand outside 0..1. TAIL is the tail
command of its number of operands. HASH is the canonical sequence, refused where a byte is out of range or where there are more
bytes than a u32 counts (U1). That `.cmd` refuses an op outside 0..15, and TAIL any other number of operands, is the model's
reading (log entry 12). -/
def Obligations.AssemblerEncodesLines : Prop :=
  (Claims.encodesWhen .nop True 0 0 ∧ Claims.encodesWhen .finish True 3 0 ∧ Claims.encodesWhen .clear True 9 0 ∧
    Claims.encodesWhen .wait True 0 0) ∧
  (∀ n : Nat, Claims.encodesWhen (.init n) (n < 2 ^ 32) 1 n ∧ Claims.encodesWhen (.setacc n) (n < 2 ^ 32) 8 n ∧
    Claims.encodesWhen (.blockw n) (n < 2 ^ 32) 2 n) ∧
  (∀ b0 b1 b2 b3 : Nat, Claims.encodesWhen (.block b0 b1 b2 b3) (b0 < 256 ∧ b1 < 256 ∧ b2 < 256 ∧ b3 < 256) 2
    (b0 + b1 * 2 ^ 8 + b2 * 2 ^ 16 + b3 * 2 ^ 24)) ∧
  (∀ b0 : Nat, Claims.encodesWhen (.tail1 b0) (b0 < 256) 5 b0 ∧ assemble (.tail [b0]) = assemble (.tail1 b0)) ∧
  (∀ b0 b1 : Nat, Claims.encodesWhen (.tail2 b0 b1) (b0 < 256 ∧ b1 < 256) 6 (b0 + b1 * 2 ^ 8) ∧
    assemble (.tail [b0, b1]) = assemble (.tail2 b0 b1)) ∧
  (∀ b0 b1 b2 : Nat, Claims.encodesWhen (.tail3 b0 b1 b2) (b0 < 256 ∧ b1 < 256 ∧ b2 < 256) 7
      (b0 + b1 * 2 ^ 8 + b2 * 2 ^ 16) ∧
    assemble (.tail [b0, b1, b2]) = assemble (.tail3 b0 b1 b2)) ∧
  (∀ bytes : List Nat, bytes.length = 0 ∨ 3 < bytes.length → assemble (.tail bytes) = none) ∧
  (∀ d e : Nat, Claims.encodesWhen (.config d e) (d < 2 ∧ e < 2) 10 (d + e * 2)) ∧
  (∀ op arg : Nat, Claims.encodesWhen (.cmd op arg) (op < 16 ∧ arg < 2 ^ 32) op arg) ∧
  (∀ bytes : List Nat,
    ((∀ b ∈ bytes, b < 256) ∧ bytes.length < 2 ^ 32 →
      assemble (.hash bytes) = some ((canonical (bytes.map (BitVec.ofNat 8))).map encode)) ∧
    (¬ ((∀ b ∈ bytes, b < 256) ∧ bytes.length < 2 ^ 32) → assemble (.hash bytes) = none))
end

