-- ==== Sys2Proof/Laws/Encoding.lean ====
section
/-! SUPPORT. The fields of a command word: what `commandWord` puts together, `opcodeOf` and `argOf` take apart. -/

namespace Sys2Proof

@[simp] theorem opcodeOf_commandWord (op : Opcode) (arg : Word) : opcodeOf (commandWord op arg) = op :=
  BitVec.extractLsb'_append_eq_left

@[simp] theorem argOf_commandWord (op : Opcode) (arg : Word) : argOf (commandWord op arg) = arg :=
  BitVec.extractLsb'_append_eq_right

/-- A command word is its two fields (R80). -/
theorem commandWord_fields (w : CommandWord) : commandWord (opcodeOf w) (argOf w) = w := by
  apply BitVec.eq_of_getLsbD_eq
  intro k hk
  simp only [commandWord, opcodeOf, argOf, BitVec.getLsbD_append, BitVec.getLsbD_extractLsb']
  by_cases h : k < 32
  · simp [h]
  · have : 32 + (k - 32) = k := by omega
    simp [h, this]
    omega

/-- The port's two fields are a command word (R38, R80). -/
theorem portWord_eq (p : Machine.Pins) : Machine.portWord p = commandWord p.cmdOp p.cmdArg := rfl

/-- Bit j of lane i is bit 8i+j of the argument (R63). -/
theorem getLsbD_lane (i j : Nat) (arg : Word) (hj : j < 8) : (lane i arg).getLsbD j = arg.getLsbD (8 * i + j) := by
  simp [lane, hj]

end Sys2Proof
end

