-- ==== Sys2Proof/Laws/State.lean ====
section
/-! SUPPORT. One lemma per field per named update of the state, each true by rfl, so that no proof unfolds a record update. -/

namespace Sys2Proof.Machine

/-! ### `raiseError` -/

@[simp] theorem raiseError_len (c : Cause) (op : Opcode) (s : State) : (raiseError c op s).len = s.len := rfl
@[simp] theorem raiseError_acc (c : Cause) (op : Opcode) (s : State) : (raiseError c op s).acc = s.acc := rfl
@[simp] theorem raiseError_cnt (c : Cause) (op : Opcode) (s : State) : (raiseError c op s).cnt = s.cnt := rfl
@[simp] theorem raiseError_rem (c : Cause) (op : Opcode) (s : State) : (raiseError c op s).rem = s.rem := rfl
@[simp] theorem raiseError_state (c : Cause) (op : Opcode) (s : State) : (raiseError c op s).state = .error := rfl
@[simp] theorem raiseError_result (c : Cause) (op : Opcode) (s : State) : (raiseError c op s).result = s.result := rfl
@[simp] theorem raiseError_cause (c : Cause) (op : Opcode) (s : State) : (raiseError c op s).cause = c := rfl
@[simp] theorem raiseError_errOp (c : Cause) (op : Opcode) (s : State) : (raiseError c op s).errOp = op := rfl
@[simp] theorem raiseError_ieDone (c : Cause) (op : Opcode) (s : State) : (raiseError c op s).ieDone = s.ieDone := rfl
@[simp] theorem raiseError_ieErr (c : Cause) (op : Opcode) (s : State) : (raiseError c op s).ieErr = s.ieErr := rfl
@[simp] theorem raiseError_inflight (c : Cause) (op : Opcode) (s : State) : (raiseError c op s).inflight = s.inflight := rfl
@[simp] theorem raiseError_lat (c : Cause) (op : Opcode) (s : State) : (raiseError c op s).lat = s.lat := rfl
@[simp] theorem raiseError_pins (c : Cause) (op : Opcode) (s : State) : (raiseError c op s).pins = s.pins := rfl
@[simp] theorem raiseError_draws (c : Cause) (op : Opcode) (s : State) : (raiseError c op s).draws = s.draws := rfl

/-! ### `resetEdge` -/

@[simp] theorem resetEdge_len (s : State) : (resetEdge s).len = 0#32 := rfl
@[simp] theorem resetEdge_acc (s : State) : (resetEdge s).acc = 0#32 := rfl
@[simp] theorem resetEdge_cnt (s : State) : (resetEdge s).cnt = 0#30 := rfl
@[simp] theorem resetEdge_rem (s : State) : (resetEdge s).rem = 0#2 := rfl
@[simp] theorem resetEdge_state (s : State) : (resetEdge s).state = .idle := rfl
@[simp] theorem resetEdge_result (s : State) : (resetEdge s).result = 0#32 := rfl
@[simp] theorem resetEdge_cause (s : State) : (resetEdge s).cause = .none := rfl
@[simp] theorem resetEdge_errOp (s : State) : (resetEdge s).errOp = 0#4 := rfl
@[simp] theorem resetEdge_ieDone (s : State) : (resetEdge s).ieDone = false := rfl
@[simp] theorem resetEdge_ieErr (s : State) : (resetEdge s).ieErr = false := rfl
@[simp] theorem resetEdge_inflight (s : State) : (resetEdge s).inflight = none := rfl
@[simp] theorem resetEdge_lat (s : State) : (resetEdge s).lat = s.lat := rfl
@[simp] theorem resetEdge_pins (s : State) : (resetEdge s).pins = s.pins := rfl
@[simp] theorem resetEdge_draws (s : State) : (resetEdge s).draws = s.draws := rfl

/-! ### `advance` -/

@[simp] theorem advance_len (s : State) : (advance s).len = s.len := rfl
@[simp] theorem advance_acc (s : State) : (advance s).acc = s.acc := rfl
@[simp] theorem advance_cnt (s : State) : (advance s).cnt = s.cnt := rfl
@[simp] theorem advance_rem (s : State) : (advance s).rem = s.rem := rfl
@[simp] theorem advance_state (s : State) : (advance s).state = s.state := rfl
@[simp] theorem advance_result (s : State) : (advance s).result = s.result := rfl
@[simp] theorem advance_cause (s : State) : (advance s).cause = s.cause := rfl
@[simp] theorem advance_errOp (s : State) : (advance s).errOp = s.errOp := rfl
@[simp] theorem advance_ieDone (s : State) : (advance s).ieDone = s.ieDone := rfl
@[simp] theorem advance_ieErr (s : State) : (advance s).ieErr = s.ieErr := rfl
@[simp] theorem advance_inflight (s : State) : (advance s).inflight = s.inflight := rfl
@[simp] theorem advance_lat (s : State) : (advance s).lat = s.lat := rfl
@[simp] theorem advance_pins (s : State) : (advance s).pins = s.pins.tail := rfl
@[simp] theorem advance_draws (s : State) : (advance s).draws = s.draws + 1 := rfl

/-! ### `putInFlight` -/

@[simp] theorem putInFlight_len (i : Instr) (n : Nat) (s : State) : (putInFlight i n s).len = s.len := rfl
@[simp] theorem putInFlight_acc (i : Instr) (n : Nat) (s : State) : (putInFlight i n s).acc = s.acc := rfl
@[simp] theorem putInFlight_cnt (i : Instr) (n : Nat) (s : State) : (putInFlight i n s).cnt = s.cnt := rfl
@[simp] theorem putInFlight_rem (i : Instr) (n : Nat) (s : State) : (putInFlight i n s).rem = s.rem := rfl
@[simp] theorem putInFlight_state (i : Instr) (n : Nat) (s : State) : (putInFlight i n s).state = s.state := rfl
@[simp] theorem putInFlight_result (i : Instr) (n : Nat) (s : State) : (putInFlight i n s).result = s.result := rfl
@[simp] theorem putInFlight_cause (i : Instr) (n : Nat) (s : State) : (putInFlight i n s).cause = s.cause := rfl
@[simp] theorem putInFlight_errOp (i : Instr) (n : Nat) (s : State) : (putInFlight i n s).errOp = s.errOp := rfl
@[simp] theorem putInFlight_ieDone (i : Instr) (n : Nat) (s : State) : (putInFlight i n s).ieDone = s.ieDone := rfl
@[simp] theorem putInFlight_ieErr (i : Instr) (n : Nat) (s : State) : (putInFlight i n s).ieErr = s.ieErr := rfl
@[simp] theorem putInFlight_inflight (i : Instr) (n : Nat) (s : State) : (putInFlight i n s).inflight = some ⟨i, n⟩ := rfl
@[simp] theorem putInFlight_lat (i : Instr) (n : Nat) (s : State) : (putInFlight i n s).lat = s.lat := rfl
@[simp] theorem putInFlight_pins (i : Instr) (n : Nat) (s : State) : (putInFlight i n s).pins = s.pins := rfl
@[simp] theorem putInFlight_draws (i : Instr) (n : Nat) (s : State) : (putInFlight i n s).draws = s.draws := rfl

/-! ### `endFlight` -/

@[simp] theorem endFlight_len (s : State) : (endFlight s).len = s.len := rfl
@[simp] theorem endFlight_acc (s : State) : (endFlight s).acc = s.acc := rfl
@[simp] theorem endFlight_cnt (s : State) : (endFlight s).cnt = s.cnt := rfl
@[simp] theorem endFlight_rem (s : State) : (endFlight s).rem = s.rem := rfl
@[simp] theorem endFlight_state (s : State) : (endFlight s).state = s.state := rfl
@[simp] theorem endFlight_result (s : State) : (endFlight s).result = s.result := rfl
@[simp] theorem endFlight_cause (s : State) : (endFlight s).cause = s.cause := rfl
@[simp] theorem endFlight_errOp (s : State) : (endFlight s).errOp = s.errOp := rfl
@[simp] theorem endFlight_ieDone (s : State) : (endFlight s).ieDone = s.ieDone := rfl
@[simp] theorem endFlight_ieErr (s : State) : (endFlight s).ieErr = s.ieErr := rfl
@[simp] theorem endFlight_inflight (s : State) : (endFlight s).inflight = none := rfl
@[simp] theorem endFlight_lat (s : State) : (endFlight s).lat = s.lat := rfl
@[simp] theorem endFlight_pins (s : State) : (endFlight s).pins = s.pins := rfl
@[simp] theorem endFlight_draws (s : State) : (endFlight s).draws = s.draws := rfl

/-! ### `finishEmptyRun` -/

@[simp] theorem finishEmptyRun_len (s : State) : (finishEmptyRun s).len = 0#32 := rfl
@[simp] theorem finishEmptyRun_acc (s : State) : (finishEmptyRun s).acc = 0#32 := rfl
@[simp] theorem finishEmptyRun_cnt (s : State) : (finishEmptyRun s).cnt = 0#30 := rfl
@[simp] theorem finishEmptyRun_rem (s : State) : (finishEmptyRun s).rem = 0#2 := rfl
@[simp] theorem finishEmptyRun_state (s : State) : (finishEmptyRun s).state = .done := rfl
@[simp] theorem finishEmptyRun_result (s : State) : (finishEmptyRun s).result = 0#32 := rfl
@[simp] theorem finishEmptyRun_cause (s : State) : (finishEmptyRun s).cause = .none := rfl
@[simp] theorem finishEmptyRun_errOp (s : State) : (finishEmptyRun s).errOp = 0#4 := rfl
@[simp] theorem finishEmptyRun_ieDone (s : State) : (finishEmptyRun s).ieDone = s.ieDone := rfl
@[simp] theorem finishEmptyRun_ieErr (s : State) : (finishEmptyRun s).ieErr = s.ieErr := rfl
@[simp] theorem finishEmptyRun_inflight (s : State) : (finishEmptyRun s).inflight = s.inflight := rfl
@[simp] theorem finishEmptyRun_lat (s : State) : (finishEmptyRun s).lat = s.lat := rfl
@[simp] theorem finishEmptyRun_pins (s : State) : (finishEmptyRun s).pins = s.pins := rfl
@[simp] theorem finishEmptyRun_draws (s : State) : (finishEmptyRun s).draws = s.draws := rfl

/-! ### `startRun` -/

@[simp] theorem startRun_len (n : Word) (s : State) : (startRun n s).len = n := rfl
@[simp] theorem startRun_acc (n : Word) (s : State) : (startRun n s).acc = n := rfl
@[simp] theorem startRun_cnt (n : Word) (s : State) : (startRun n s).cnt = blockCount n := rfl
@[simp] theorem startRun_rem (n : Word) (s : State) : (startRun n s).rem = remainder n := rfl
@[simp] theorem startRun_state (n : Word) (s : State) :
    (startRun n s).state = if blockCount n = 0#30 then .tailWait else .blocks := rfl
@[simp] theorem startRun_result (n : Word) (s : State) : (startRun n s).result = s.result := rfl
@[simp] theorem startRun_cause (n : Word) (s : State) : (startRun n s).cause = .none := rfl
@[simp] theorem startRun_errOp (n : Word) (s : State) : (startRun n s).errOp = 0#4 := rfl
@[simp] theorem startRun_ieDone (n : Word) (s : State) : (startRun n s).ieDone = s.ieDone := rfl
@[simp] theorem startRun_ieErr (n : Word) (s : State) : (startRun n s).ieErr = s.ieErr := rfl
@[simp] theorem startRun_inflight (n : Word) (s : State) : (startRun n s).inflight = s.inflight := rfl
@[simp] theorem startRun_lat (n : Word) (s : State) : (startRun n s).lat = s.lat := rfl
@[simp] theorem startRun_pins (n : Word) (s : State) : (startRun n s).pins = s.pins := rfl
@[simp] theorem startRun_draws (n : Word) (s : State) : (startRun n s).draws = s.draws := rfl

/-! ### `consumeBlock` -/

@[simp] theorem consumeBlock_len (b0 b1 b2 b3 : Byte) (s : State) : (consumeBlock b0 b1 b2 b3 s).len = s.len := rfl
@[simp] theorem consumeBlock_acc (b0 b1 b2 b3 : Byte) (s : State) :
    (consumeBlock b0 b1 b2 b3 s).acc = blockRound s.acc (load16 b0 b1) (load16 b2 b3) := rfl
@[simp] theorem consumeBlock_cnt (b0 b1 b2 b3 : Byte) (s : State) : (consumeBlock b0 b1 b2 b3 s).cnt = s.cnt - 1#30 := rfl
@[simp] theorem consumeBlock_rem (b0 b1 b2 b3 : Byte) (s : State) : (consumeBlock b0 b1 b2 b3 s).rem = s.rem := rfl
@[simp] theorem consumeBlock_state (b0 b1 b2 b3 : Byte) (s : State) :
    (consumeBlock b0 b1 b2 b3 s).state = if s.cnt - 1#30 = 0#30 then (if s.rem = 0#2 then .finWait else .tailWait) else s.state := rfl
@[simp] theorem consumeBlock_result (b0 b1 b2 b3 : Byte) (s : State) : (consumeBlock b0 b1 b2 b3 s).result = s.result := rfl
@[simp] theorem consumeBlock_cause (b0 b1 b2 b3 : Byte) (s : State) : (consumeBlock b0 b1 b2 b3 s).cause = s.cause := rfl
@[simp] theorem consumeBlock_errOp (b0 b1 b2 b3 : Byte) (s : State) : (consumeBlock b0 b1 b2 b3 s).errOp = s.errOp := rfl
@[simp] theorem consumeBlock_ieDone (b0 b1 b2 b3 : Byte) (s : State) : (consumeBlock b0 b1 b2 b3 s).ieDone = s.ieDone := rfl
@[simp] theorem consumeBlock_ieErr (b0 b1 b2 b3 : Byte) (s : State) : (consumeBlock b0 b1 b2 b3 s).ieErr = s.ieErr := rfl
@[simp] theorem consumeBlock_inflight (b0 b1 b2 b3 : Byte) (s : State) : (consumeBlock b0 b1 b2 b3 s).inflight = s.inflight := rfl
@[simp] theorem consumeBlock_lat (b0 b1 b2 b3 : Byte) (s : State) : (consumeBlock b0 b1 b2 b3 s).lat = s.lat := rfl
@[simp] theorem consumeBlock_pins (b0 b1 b2 b3 : Byte) (s : State) : (consumeBlock b0 b1 b2 b3 s).pins = s.pins := rfl
@[simp] theorem consumeBlock_draws (b0 b1 b2 b3 : Byte) (s : State) : (consumeBlock b0 b1 b2 b3 s).draws = s.draws := rfl

/-! ### `consumeTail` -/

@[simp] theorem consumeTail_len (a : Word) (s : State) : (consumeTail a s).len = s.len := rfl
@[simp] theorem consumeTail_acc (a : Word) (s : State) : (consumeTail a s).acc = a := rfl
@[simp] theorem consumeTail_cnt (a : Word) (s : State) : (consumeTail a s).cnt = s.cnt := rfl
@[simp] theorem consumeTail_rem (a : Word) (s : State) : (consumeTail a s).rem = s.rem := rfl
@[simp] theorem consumeTail_state (a : Word) (s : State) : (consumeTail a s).state = .finWait := rfl
@[simp] theorem consumeTail_result (a : Word) (s : State) : (consumeTail a s).result = s.result := rfl
@[simp] theorem consumeTail_cause (a : Word) (s : State) : (consumeTail a s).cause = s.cause := rfl
@[simp] theorem consumeTail_errOp (a : Word) (s : State) : (consumeTail a s).errOp = s.errOp := rfl
@[simp] theorem consumeTail_ieDone (a : Word) (s : State) : (consumeTail a s).ieDone = s.ieDone := rfl
@[simp] theorem consumeTail_ieErr (a : Word) (s : State) : (consumeTail a s).ieErr = s.ieErr := rfl
@[simp] theorem consumeTail_inflight (a : Word) (s : State) : (consumeTail a s).inflight = s.inflight := rfl
@[simp] theorem consumeTail_lat (a : Word) (s : State) : (consumeTail a s).lat = s.lat := rfl
@[simp] theorem consumeTail_pins (a : Word) (s : State) : (consumeTail a s).pins = s.pins := rfl
@[simp] theorem consumeTail_draws (a : Word) (s : State) : (consumeTail a s).draws = s.draws := rfl

/-! ### `publishDigest` -/

@[simp] theorem publishDigest_len (s : State) : (publishDigest s).len = s.len := rfl
@[simp] theorem publishDigest_acc (s : State) : (publishDigest s).acc = avalanche s.acc := rfl
@[simp] theorem publishDigest_cnt (s : State) : (publishDigest s).cnt = s.cnt := rfl
@[simp] theorem publishDigest_rem (s : State) : (publishDigest s).rem = s.rem := rfl
@[simp] theorem publishDigest_state (s : State) : (publishDigest s).state = .done := rfl
@[simp] theorem publishDigest_result (s : State) : (publishDigest s).result = avalanche s.acc := rfl
@[simp] theorem publishDigest_cause (s : State) : (publishDigest s).cause = s.cause := rfl
@[simp] theorem publishDigest_errOp (s : State) : (publishDigest s).errOp = s.errOp := rfl
@[simp] theorem publishDigest_ieDone (s : State) : (publishDigest s).ieDone = s.ieDone := rfl
@[simp] theorem publishDigest_ieErr (s : State) : (publishDigest s).ieErr = s.ieErr := rfl
@[simp] theorem publishDigest_inflight (s : State) : (publishDigest s).inflight = s.inflight := rfl
@[simp] theorem publishDigest_lat (s : State) : (publishDigest s).lat = s.lat := rfl
@[simp] theorem publishDigest_pins (s : State) : (publishDigest s).pins = s.pins := rfl
@[simp] theorem publishDigest_draws (s : State) : (publishDigest s).draws = s.draws := rfl

/-! ### `setAccumulator` -/

@[simp] theorem setAccumulator_len (v : Word) (s : State) : (setAccumulator v s).len = s.len := rfl
@[simp] theorem setAccumulator_acc (v : Word) (s : State) : (setAccumulator v s).acc = v := rfl
@[simp] theorem setAccumulator_cnt (v : Word) (s : State) : (setAccumulator v s).cnt = s.cnt := rfl
@[simp] theorem setAccumulator_rem (v : Word) (s : State) : (setAccumulator v s).rem = s.rem := rfl
@[simp] theorem setAccumulator_state (v : Word) (s : State) : (setAccumulator v s).state = s.state := rfl
@[simp] theorem setAccumulator_result (v : Word) (s : State) : (setAccumulator v s).result = s.result := rfl
@[simp] theorem setAccumulator_cause (v : Word) (s : State) : (setAccumulator v s).cause = s.cause := rfl
@[simp] theorem setAccumulator_errOp (v : Word) (s : State) : (setAccumulator v s).errOp = s.errOp := rfl
@[simp] theorem setAccumulator_ieDone (v : Word) (s : State) : (setAccumulator v s).ieDone = s.ieDone := rfl
@[simp] theorem setAccumulator_ieErr (v : Word) (s : State) : (setAccumulator v s).ieErr = s.ieErr := rfl
@[simp] theorem setAccumulator_inflight (v : Word) (s : State) : (setAccumulator v s).inflight = s.inflight := rfl
@[simp] theorem setAccumulator_lat (v : Word) (s : State) : (setAccumulator v s).lat = s.lat := rfl
@[simp] theorem setAccumulator_pins (v : Word) (s : State) : (setAccumulator v s).pins = s.pins := rfl
@[simp] theorem setAccumulator_draws (v : Word) (s : State) : (setAccumulator v s).draws = s.draws := rfl

/-! ### `clearRun` -/

@[simp] theorem clearRun_len (s : State) : (clearRun s).len = s.len := rfl
@[simp] theorem clearRun_acc (s : State) : (clearRun s).acc = s.acc := rfl
@[simp] theorem clearRun_cnt (s : State) : (clearRun s).cnt = 0#30 := rfl
@[simp] theorem clearRun_rem (s : State) : (clearRun s).rem = 0#2 := rfl
@[simp] theorem clearRun_state (s : State) : (clearRun s).state = .idle := rfl
@[simp] theorem clearRun_result (s : State) : (clearRun s).result = s.result := rfl
@[simp] theorem clearRun_cause (s : State) : (clearRun s).cause = .none := rfl
@[simp] theorem clearRun_errOp (s : State) : (clearRun s).errOp = 0#4 := rfl
@[simp] theorem clearRun_ieDone (s : State) : (clearRun s).ieDone = s.ieDone := rfl
@[simp] theorem clearRun_ieErr (s : State) : (clearRun s).ieErr = s.ieErr := rfl
@[simp] theorem clearRun_inflight (s : State) : (clearRun s).inflight = s.inflight := rfl
@[simp] theorem clearRun_lat (s : State) : (clearRun s).lat = s.lat := rfl
@[simp] theorem clearRun_pins (s : State) : (clearRun s).pins = s.pins := rfl
@[simp] theorem clearRun_draws (s : State) : (clearRun s).draws = s.draws := rfl

/-! ### `setEnables` -/

@[simp] theorem setEnables_len (d e : Bool) (s : State) : (setEnables d e s).len = s.len := rfl
@[simp] theorem setEnables_acc (d e : Bool) (s : State) : (setEnables d e s).acc = s.acc := rfl
@[simp] theorem setEnables_cnt (d e : Bool) (s : State) : (setEnables d e s).cnt = s.cnt := rfl
@[simp] theorem setEnables_rem (d e : Bool) (s : State) : (setEnables d e s).rem = s.rem := rfl
@[simp] theorem setEnables_state (d e : Bool) (s : State) : (setEnables d e s).state = s.state := rfl
@[simp] theorem setEnables_result (d e : Bool) (s : State) : (setEnables d e s).result = s.result := rfl
@[simp] theorem setEnables_cause (d e : Bool) (s : State) : (setEnables d e s).cause = s.cause := rfl
@[simp] theorem setEnables_errOp (d e : Bool) (s : State) : (setEnables d e s).errOp = s.errOp := rfl
@[simp] theorem setEnables_ieDone (d e : Bool) (s : State) : (setEnables d e s).ieDone = d := rfl
@[simp] theorem setEnables_ieErr (d e : Bool) (s : State) : (setEnables d e s).ieErr = e := rfl
@[simp] theorem setEnables_inflight (d e : Bool) (s : State) : (setEnables d e s).inflight = s.inflight := rfl
@[simp] theorem setEnables_lat (d e : Bool) (s : State) : (setEnables d e s).lat = s.lat := rfl
@[simp] theorem setEnables_pins (d e : Bool) (s : State) : (setEnables d e s).pins = s.pins := rfl
@[simp] theorem setEnables_draws (d e : Bool) (s : State) : (setEnables d e s).draws = s.draws := rfl

end Sys2Proof.Machine
end

