-- ==== Sys2Proof/Laws/Ops.lean ====
section
/-! SUPPORT. What the shared operations can do: the common frame, a command's outcome, one edge. Proofs cite these and do not unfold
the operations. -/

namespace Sys2Proof.Machine

/-! ### The common frame -/

/-- In STATE 6 or 7 every command raises INTERNAL (R130 step 1). -/
theorem frameVerdict_unused {d : Bool} {c : Option Cause} {s : State} (h : stateUnused s.state = true) :
    frameVerdict d c s = .raise .internal := by
  simp [frameVerdict, h]

/-- In ERROR the droppable commands are dropped (R130 step 2). -/
theorem frameVerdict_error {c : Option Cause} {s : State} (h : s.state = .error) : frameVerdict true c s = .drop := by
  simp [frameVerdict, h, stateUnused]

/-- In STATE 0-4 the command's own check decides (R130 steps 3 and 4). -/
theorem frameVerdict_check {d : Bool} {c : Option Cause} {s : State} (hu : stateUnused s.state = false)
    (he : s.state ≠ .error) : frameVerdict d c s = (match c with | some c => .raise c | none => .run) := by
  cases c <;> simp [frameVerdict, hu, he]

/-- A command with no check executes in every state 0-5 (R150-R153). -/
theorem controlVerdict_run {s : State} (hu : stateUnused s.state = false) : controlVerdict s = .run := by
  simp [controlVerdict, frameVerdict, hu]

/-- The frame depends on STATE alone. -/
theorem frameVerdict_congr {d : Bool} {c : Option Cause} {s t : State} (h : s.state = t.state) :
    frameVerdict d c s = frameVerdict d c t := by
  simp [frameVerdict, h]

/-- The verdict on a command depends on STATE and REM alone. -/
theorem verdict_congr {i : Instr} {s t : State} (hs : s.state = t.state) (hr : s.rem = t.rem) : verdict i s = verdict i t := by
  cases i <;>
    simp only [verdict, controlVerdict, blockVerdict, tailVerdict, finishVerdict, reservedVerdict, hs, hr] <;>
    exact frameVerdict_congr hs

/-- The latency of a command depends on STATE, REM and the parameters alone (R214). -/
theorem latencyOf_congr {i : Instr} {s t : State} (hs : s.state = t.state) (hr : s.rem = t.rem) (hl : s.lat = t.lat) :
    latencyOf i s = latencyOf i t := by
  simp [latencyOf, verdict_congr hs hr, hl]

/-! ### A command's outcome -/

/-- The state a command leaves when it executes: its pseudocode, without the frame. -/
def effect (i : Instr) (s : State) : State :=
  match i with
  | .nop => s
  | .init n => if n = 0#32 then finishEmptyRun s else startRun n s
  | .block b0 b1 b2 b3 => consumeBlock b0 b1 b2 b3 s
  | .finish => publishDigest s
  | .tail1 b0 => consumeTail (tailMix s.acc 1#2 b0 0 0) s
  | .tail2 b0 b1 => consumeTail (tailMix s.acc 2#2 b0 b1 0) s
  | .tail3 b0 b1 b2 => consumeTail (tailMix s.acc 3#2 b0 b1 b2) s
  | .setacc v => setAccumulator v s
  | .clear => clearRun s
  | .config d e => setEnables d e s
  | .reserved4 | .reservedB | .reservedC | .reservedD | .reservedE | .reservedF => s

/-- What a verdict makes of an effect: the state that `settle` answers. -/
def applyVerdict (v : Verdict) (op : Opcode) (after s : State) : State :=
  match v with
  | .run => after
  | .drop => s
  | .raise c => raiseError c op s

/-- A command always answers a next state, its verdict applied to its effect. -/
theorem settle_eq (op : Opcode) (v : Verdict) (f : State → State) (s : State) :
    settle op v f s = .next (applyVerdict v op (f s) s) := by
  cases v <;> rfl

/-- The state a command leaves (R130). -/
def outcome (i : Instr) (s : State) : State := applyVerdict (verdict i s) i.opcode (effect i s) s

/-- Every command is its verdict and its effect: the one fact about `exec` that proofs need. -/
theorem exec_eq (i : Instr) (s : State) : exec i s = .next (outcome i s) := by
  cases i with
  | init n =>
    have h : (if n = 0#32 then finishEmptyRun else startRun n) s = effect (.init n) s := by
      simp only [effect]; split <;> rfl
    exact (settle_eq _ _ _ _).trans (by rw [h]; rfl)
  | _ => exact settle_eq _ _ _ _

/-- No command touches the command in flight, the parameters, the host's inputs or the draw counter. -/
theorem outcome_host (i : Instr) (s : State) :
    (outcome i s).inflight = s.inflight ∧ (outcome i s).lat = s.lat ∧ (outcome i s).pins = s.pins ∧
      (outcome i s).draws = s.draws := by
  unfold outcome
  cases verdict i s with
  | run =>
    cases i with
    | init n => by_cases h : n = 0#32 <;> simp [applyVerdict, effect, h]
    | _ => simp [applyVerdict, effect]
  | drop => simp [applyVerdict]
  | raise c => simp [applyVerdict]

/-! ### One edge -/

/-- One edge does one of five things: it resets, lands the command in flight, counts a busy edge, accepts a command (at once, or
into flight), or holds. -/
theorem step_cases {s t : State} (h : step s = .next t) :
    ((currentPins s).rst = true ∧ t = resetEdge (advance s)) ∨
    ((currentPins s).rst = false ∧ ∃ c, s.inflight = some c ∧ c.edgesLeft ≤ 1 ∧ t = outcome c.command (endFlight (advance s))) ∨
    ((currentPins s).rst = false ∧ ∃ c, s.inflight = some c ∧ 1 < c.edgesLeft ∧
      t = putInFlight c.command (c.edgesLeft - 1) (advance s)) ∨
    ((currentPins s).rst = false ∧ s.inflight = none ∧ (currentPins s).cmdValid = true ∧
      ((latencyOf (decode (portWord (currentPins s))) s ≤ 1 ∧ t = outcome (decode (portWord (currentPins s))) (advance s)) ∨
       (1 < latencyOf (decode (portWord (currentPins s))) s ∧
          t = putInFlight (decode (portWord (currentPins s))) (latencyOf (decode (portWord (currentPins s))) s - 1) (advance s)))) ∨
    ((currentPins s).rst = false ∧ s.inflight = none ∧ (currentPins s).cmdValid = false ∧ t = advance s) := by
  have hlat : ∀ i, latencyOf i (advance s) = latencyOf i s := fun i => latencyOf_congr rfl rfl rfl
  simp only [step, clockEdge, acceptCommand, exec_eq, hlat, advance_inflight] at h
  cases hr : (currentPins s).rst with
  | true => simp [hr] at h; simp [h]
  | false =>
    simp only [hr] at h
    cases hf : s.inflight with
    | some c =>
      simp only [hf] at h
      by_cases hc : c.edgesLeft ≤ 1
      · simp [hc] at h; simp [hc, h]
      · simp [hc] at h; simp [h]; omega
    | none =>
      simp only [hf] at h
      cases hv : (currentPins s).cmdValid with
      | false => simp [hv] at h; simp [h]
      | true =>
        by_cases hl : latencyOf (decode (portWord (currentPins s))) s ≤ 1
        · simp [hv, hl] at h; simp [h]; omega
        · simp [hv, hl] at h; simp [h]; omega

/-! ### Many edges, many commands -/

/-- `runClock` is the interface's run. -/
theorem runClock_eq_core (k : Nat) (s : State) : runClock k s = Sys2Proof.core.run k s := by
  induction k generalizing s with
  | zero => rfl
  | succ k ih =>
    cases hs : step s with
    | next t =>
      have hc : Sys2Proof.core.step s = .next t := hs
      simp only [runClock, Host.Core.run, hs, hc]
      exact ih t
    | fault r => exact r.rec
    | refused r =>
      have hc : Sys2Proof.core.step s = .refused r := hs
      simp only [runClock, Host.Core.run, hs, hc]
      rfl

/-- One more edge, first. -/
theorem runClock_succ {s t : State} (k : Nat) (h : step s = .next t) : runClock (k + 1) s = runClock k t := by
  simp [runClock, h]

/-- Edges after edges. -/
theorem runClock_add {s t : State} (a b : Nat) (h : runClock a s = .next t) : runClock (a + b) s = runClock b t := by
  induction a generalizing s with
  | zero => simp [runClock] at h; simp [h]
  | succ a ih =>
    rw [Nat.succ_add]
    simp only [runClock] at h ⊢
    cases hs : step s with
    | next u => rw [hs] at h; exact ih h
    | fault r => rw [hs] at h; cases h
    | refused r => rw [hs] at h; cases h

/-- A command first, then the others. -/
theorem runCommands_cons (i : Instr) (rest : List Instr) (s : State) :
    runCommands (i :: rest) s = runCommands rest (outcome i s) := by
  simp only [runCommands, exec_eq]

/-- Commands after commands. -/
theorem runCommands_append {s t : State} (a b : List Instr) (h : runCommands a s = .next t) :
    runCommands (a ++ b) s = runCommands b t := by
  induction a generalizing s with
  | nil => simp [runCommands] at h; simp [h]
  | cons i a ih => rw [List.cons_append, runCommands_cons]; exact ih (by rwa [runCommands_cons] at h)

end Sys2Proof.Machine
end

