-- ==== Sys2Proof/Laws/PerInstr.lean ====
section
/-! SUPPORT. Statements made of every command as syntax, one lemma per constructor. -/

namespace Sys2Proof.Laws

/-- The encoder puts the command's opcode in bits [35:32] and its argument in bits [31:0] (R80). -/
def Fields.Statement (i : Instr) : Prop := opcodeOf (encode i) = i.opcode ∧ argOf (encode i) = i.arg

theorem Fields.nop : Fields.Statement .nop := ⟨opcodeOf_commandWord _ _, argOf_commandWord _ _⟩
theorem Fields.init (len : Word) : Fields.Statement (.init len) := ⟨opcodeOf_commandWord _ _, argOf_commandWord _ _⟩
theorem Fields.block (b0 b1 b2 b3 : Byte) : Fields.Statement (.block b0 b1 b2 b3) :=
  ⟨opcodeOf_commandWord _ _, argOf_commandWord _ _⟩
theorem Fields.finish : Fields.Statement .finish := ⟨opcodeOf_commandWord _ _, argOf_commandWord _ _⟩
theorem Fields.reserved4 : Fields.Statement .reserved4 := ⟨opcodeOf_commandWord _ _, argOf_commandWord _ _⟩
theorem Fields.tail1 (b0 : Byte) : Fields.Statement (.tail1 b0) := ⟨opcodeOf_commandWord _ _, argOf_commandWord _ _⟩
theorem Fields.tail2 (b0 b1 : Byte) : Fields.Statement (.tail2 b0 b1) :=
  ⟨opcodeOf_commandWord _ _, argOf_commandWord _ _⟩
theorem Fields.tail3 (b0 b1 b2 : Byte) : Fields.Statement (.tail3 b0 b1 b2) :=
  ⟨opcodeOf_commandWord _ _, argOf_commandWord _ _⟩
theorem Fields.setacc (value : Word) : Fields.Statement (.setacc value) :=
  ⟨opcodeOf_commandWord _ _, argOf_commandWord _ _⟩
theorem Fields.clear : Fields.Statement .clear := ⟨opcodeOf_commandWord _ _, argOf_commandWord _ _⟩
theorem Fields.config (d e : Bool) : Fields.Statement (.config d e) := ⟨opcodeOf_commandWord _ _, argOf_commandWord _ _⟩
theorem Fields.reservedB : Fields.Statement .reservedB := ⟨opcodeOf_commandWord _ _, argOf_commandWord _ _⟩
theorem Fields.reservedC : Fields.Statement .reservedC := ⟨opcodeOf_commandWord _ _, argOf_commandWord _ _⟩
theorem Fields.reservedD : Fields.Statement .reservedD := ⟨opcodeOf_commandWord _ _, argOf_commandWord _ _⟩
theorem Fields.reservedE : Fields.Statement .reservedE := ⟨opcodeOf_commandWord _ _, argOf_commandWord _ _⟩
theorem Fields.reservedF : Fields.Statement .reservedF := ⟨opcodeOf_commandWord _ _, argOf_commandWord _ _⟩

end Sys2Proof.Laws
end

