-- ==== Sys2Proof/Tests/Slice0.lean ====
section
/-! SUPPORT. The model's own tests: spec words decoded, ill-formed terms refused, the values of spec/95_test_vectors.md, and for
each statement with hypotheses a witness that meets them. Every expected value is the spec's. -/

namespace Sys2Proof.Tests

open Sys2Proof Sys2Proof.Machine

/-! ### Small states to test on -/

/-- The next state of an outcome, if it has one. -/
def nextOf : Host.Outcome State Fault Refusal → Option State
  | .next t => some t
  | .fault _ => none
  | .refused _ => none

/-- Some state of each phase. -/
def sBlocks (cnt : BitVec 30) (rem : BitVec 2) : State :=
  { State.reset with state := .blocks, cnt := cnt, rem := rem, len := 0xFFFFFFFF#32, acc := 0x0000000C#32 }
def sTail (rem : BitVec 2) (acc : Word) : State := { State.reset with state := .tailWait, rem := rem, acc := acc }
def sFin (acc : Word) : State := { State.reset with state := .finWait, acc := acc }
def sDone : State := { State.reset with state := .done, result := 0x69C8643C#32, acc := 0x69C8643C#32 }
def sError : State := { State.reset with state := .error, cause := .notStarted, errOp := 0x3#4 }
def sUnused6 : State := { State.reset with state := .unused6 }
def sUnused7 : State := { State.reset with state := .unused7 }

/-- Latencies that all differ. -/
def slow : Latencies := ⟨2, 3, 4, 6, 5⟩

/-- FINISH in flight, its effect to land in so many edges. -/
def sBusy (edges : Nat) : State := { sFin 0x7D0F7459#32 with lat := slow, inflight := some ⟨.finish, edges⟩ }

/-- A state whose next edges see these input ports. -/
def seeing (pins : List Pins) (s : State) : State := { s with pins := pins }

/-- A reset edge on which the host also presents INIT 4. -/
def resetPins : Pins := ⟨true, true, 0x1#4, 0x00000004#32, 0#3⟩

/-! ### Decoding the spec's words -/

/-- spec/95 sections 1.3, 2.4 and 3: digest commands. -/
theorem test_decode_digest_words :
    decode 0x10000000C#36 = .init 12#32 ∧ decode 0x265697348#36 = .block 0x48#8 0x73#8 0x69#8 0x65#8 ∧
    decode 0x500000079#36 = .tail1 0x79#8 ∧ decode 0x60000216F#36 = .tail2 0x6F#8 0x21#8 ∧
    decode 0x700030201#36 = .tail3 0x01#8 0x02#8 0x03#8 ∧ decode 0x300000000#36 = .finish := by decide

/-- spec/95 sections 2.9 and 3: control commands; arg[31:2] of CONFIG is ignored (R153). -/
theorem test_decode_control_words :
    decode 0x8DEADBEEF#36 = .setacc 0xDEADBEEF#32 ∧ decode 0xA00000002#36 = .config false true ∧
    decode 0xAFFFFFFFD#36 = .config true false ∧ decode 0x900000000#36 = .clear ∧ decode 0x0FFFFFFFF#36 = .nop := by decide

/-- R86: every reserved opcode, with any argument. -/
theorem test_decode_reserved_words :
    decode 0x4FFFFFFFF#36 = .reserved4 ∧ decode 0xB00000000#36 = .reservedB ∧ decode 0xC00000001#36 = .reservedC ∧
    decode 0xD12345678#36 = .reservedD ∧ decode 0xE00000000#36 = .reservedE ∧ decode 0xF00000000#36 = .reservedF := by decide

/-- R80: a bit above bit 35 is no command word; below it, `nbits` says which bits count. -/
theorem test_decode_bit_strings :
    decodeBits 0x1000000000 = .error .widerThanCommandWord ∧ decodeTableWord 40 0x1000000000 = none ∧
    decodeTableWord 36 0x10000000D = some (.init 13#32) ∧ decodeTableWord 36 0x110000000D = some (.init 13#32) := by decide

/-- R80, R89: the words the encoder writes. -/
theorem test_encode_words :
    encode (.block 0x48#8 0x65#8 0x6C#8 0x6C#8) = 0x26C6C6548#36 ∧ encode (.tail3 0x61#8 0x62#8 0x63#8) = 0x700636261#36 ∧
    encode (.config true true) = 0xA00000003#36 ∧ encode .clear = 0x900000000#36 := by decide

/-! ### Ill-formed terms are refused (R89, U1, R214) -/

theorem test_byte_operand_refused :
    (AsmLine.block 0 0 0 256).wellFormed = false ∧ (AsmLine.block 256 0 0 0).wellFormed = false ∧
    (AsmLine.tail1 256).wellFormed = false ∧ (AsmLine.tail2 0 256).wellFormed = false ∧
    (AsmLine.tail3 0 0 256).wellFormed = false ∧ (AsmLine.tail [256]).wellFormed = false ∧
    (AsmLine.hash [0, 256]).wellFormed = false ∧ assemble (.tail1 256) = none := by decide

theorem test_word_operand_refused :
    (AsmLine.init (2 ^ 32)).wellFormed = false ∧ (AsmLine.setacc (2 ^ 32)).wellFormed = false ∧
    (AsmLine.blockw (2 ^ 32)).wellFormed = false ∧ (AsmLine.cmd 0 (2 ^ 32)).wellFormed = false ∧
    wordInRange (2 ^ 32) = false ∧ (AsmLine.init (2 ^ 32 - 1)).wellFormed = true := by decide

theorem test_config_operand_refused :
    (AsmLine.config 2 0).wellFormed = false ∧ (AsmLine.config 0 2).wellFormed = false ∧
    (AsmLine.config 1 1).wellFormed = true := by decide

theorem test_raw_opcode_refused : (AsmLine.cmd 16 0).wellFormed = false ∧ (AsmLine.cmd 15 0).wellFormed = true := by decide

theorem test_tail_operand_count_refused :
    (AsmLine.tail []).wellFormed = false ∧ (AsmLine.tail [1, 2, 3, 4]).wellFormed = false ∧
    (AsmLine.tail [1, 2, 3]).wellFormed = true := by decide

theorem test_latency_zero_refused :
    (Latencies.mk 0 1 1 1 1).wellFormed = false ∧ (Latencies.mk 1 0 1 1 1).wellFormed = false ∧
    (Latencies.mk 1 1 0 1 1).wellFormed = false ∧ (Latencies.mk 1 1 1 0 1).wellFormed = false ∧
    (Latencies.mk 1 1 1 1 0).wellFormed = false ∧ slow.wellFormed = true := by decide

/-! ### Assembly text (R89-R91, the programs of spec/95 section 3) -/

theorem test_assemble_block_text :
    assembleText asciiBytes "BLOCK 'H', 'e', 'l', 'l'          ; 0x26C6C6548".toList = some [0x26C6C6548#36] := by decide

theorem test_assemble_raw_text :
    assembleText asciiBytes ".cmd 0xF, 0x00000000 ; reserved".toList = some [0xF00000000#36] ∧
    assembleText asciiBytes "tail1 256".toList = none ∧ assembleText asciiBytes "; a comment".toList = some [] := by decide

theorem test_assemble_hash_text :
    assembleText asciiBytes "HASH \"abc\"".toList = some [0x100000003#36, 0x700636261#36, 0x300000000#36] ∧
    assembleText asciiBytes "hash".toList = some [0x100000000#36] := by decide

theorem test_assemble_program_text :
    assembleProgram asciiBytes "CONFIG 1, 1\nWAIT\nBLOCKW 0x6C6C6548\nTAIL 's', 'h'".toList =
      some [0xA00000003#36, 0x000000000#36, 0x26C6C6548#36, 0x600006873#36] := by decide

/-! ### The datapath (spec/95 sections 2.1, 2.2) -/

theorem test_primitives :
    add 0x12345678#32 0x9ABCDEF0#32 = 0xACF13568#32 ∧ xshl 0xFFFFFFFF#32 25 = 0x01FFFFFF#32 ∧
    xshl 0x12345678#32 10 = 0xC36DB678#32 ∧ ashr 0x80000000#32 11 = 0x80100000#32 ∧
    ashr 0xFFFFFFFF#32 17 = 0x00007FFE#32 ∧ xin 0x12345678#32 0x03FC0000#32 = 0x11C85678#32 := by decide

theorem test_word_loader :
    load16 0x48#8 0x65#8 = 0x00006548#32 ∧ load16 0x01#8 0x80#8 = 0x00008001#32 ∧ load16 0xFF#8 0x00#8 = 0x000000FF#32 := by
  decide

/-- spec/95 section 1.1: the source's known vectors, "Hello World!", "Hsieh Hash", "SuperFastHash" and "pirateDay" in ASCII. -/
theorem test_known_vectors :
    digest [0x48, 0x65, 0x6C, 0x6C, 0x6F, 0x20, 0x57, 0x6F, 0x72, 0x6C, 0x64, 0x21] = 1774740540#32 ∧
    digest [0x48, 0x73, 0x69, 0x65, 0x68, 0x20, 0x48, 0x61, 0x73, 0x68] = 1552477933#32 ∧
    digest [0x53, 0x75, 0x70, 0x65, 0x72, 0x46, 0x61, 0x73, 0x74, 0x48, 0x61, 0x73, 0x68] = 2245601745#32 ∧
    digest [0x70, 0x69, 0x72, 0x61, 0x74, 0x65, 0x44, 0x61, 0x79] = 2774317235#32 := by decide

/-! ### One command (spec/95 sections 1.3, 2.3-2.10) -/

theorem test_init_zero_length : (nextOf (exec (.init 0#32) State.reset)).map statusWord = some 0x00000014#32 := by decide

theorem test_init_largest_length :
    (nextOf (exec (.init 0xFFFFFFFF#32) State.reset)).map (fun t => (t.cnt, t.rem, statusWord t)) =
      some (0x3FFFFFFF#30, 3#2, 0x00030001#32) := by decide

theorem test_block_hell :
    (nextOf (exec (decode 0x26C6C6548#36) (sBlocks 3#30 0#2))).map (fun t => (t.acc, t.cnt, t.state)) =
      some (0x6643CC34#32, 2#30, .blocks) := by decide

theorem test_block_carries_out :
    (nextOf (exec (decode 0x2FFFFFFFF#36) { sBlocks 1#30 0#2 with acc := 0xFFFFFFFF#32 })).map (fun t => (t.acc, t.state)) =
      some (0xF820081E#32, .finWait) := by decide

theorem test_tail1_zero_extends :
    (nextOf (exec (decode 0x5FFFFFF80#36) (sTail 1#2 0x00000001#32))).map (fun t => (t.acc, t.state)) =
      some (0x000306C1#32, .finWait) := by decide

theorem test_tail2_wraps :
    (nextOf (exec (decode 0x60000FFFF#36) (sTail 2#2 0xFFFFFFFF#32))).map (·.acc) = some 0x07FF13FD#32 := by decide

theorem test_tail2_hsieh_hash :
    (nextOf (exec (decode 0x600006873#36) (sTail 2#2 0x196F5866#32))).map (·.acc) = some 0x67693C8D#32 := by decide

theorem test_tail3_third_byte :
    (nextOf (exec (.tail3 0x00#8 0x00#8 0x80#8) (sTail 3#2 0x00000003#32))).map (·.acc) = some 0x02034063#32 := by decide

theorem test_tail3_wrong_remainder :
    (nextOf (exec (decode 0x700030201#36) (sTail 2#2 0x00000002#32))).map statusWord = some 0x00027525#32 := by decide

theorem test_finish_hello_world :
    (nextOf (exec .finish (sFin 0x7D0F7459#32))).map (fun t => (t.acc, t.result, t.state)) =
      some (0x69C8643C#32, 0x69C8643C#32, .done) := by decide

theorem test_finish_in_idle : (nextOf (exec .finish State.reset)).map statusWord = some 0x00003225#32 := by decide

theorem test_nop_in_error : nextOf (exec .nop sError) = some sError := by decide

theorem test_setacc_in_done :
    (nextOf (exec (.setacc 0#32) sDone)).map (fun t => (t.acc, t.result, t.state)) = some (0#32, 0x69C8643C#32, .done) := by
  decide

theorem test_clear_keeps_enables :
    (nextOf (exec .clear { sError with ieErr := true })).map statusWord = some 0x00200000#32 := by decide

theorem test_config_raises_irq : (nextOf (exec (.config true false) sDone)).map statusWord = some 0x00500014#32 := by decide

theorem test_reserved_in_done : (nextOf (exec .reservedF sDone)).map statusWord = some 0x0000F125#32 := by decide

theorem test_reserved_dropped_in_error : nextOf (exec .reserved4 sError) = some sError := by decide

/-! ### Edges and ports -/

theorem test_finish_of_six_edges :
    nextOf (step (sBusy 2)) = some { sBusy 1 with draws := 1 } ∧
    (nextOf (step (sBusy 1))).map (fun t => (t.result, t.inflight)) = some (0x69C8643C#32, none) := by decide

theorem test_reset_abandons_command :
    nextOf (step (seeing [resetPins] (sBusy 1))) = some { State.reset with lat := slow, draws := 1 } := by decide

theorem test_placed_word_runs :
    (nextOf (step (State.reset.withFetchWord 36 0x10000000D))).map (fun t => (t.acc, t.cnt, t.rem, t.state)) =
      some (0x0000000D#32, 3#30, 1#2, .blocks) := by decide

theorem test_observation_constants :
    obsValue 5#3 sDone = 0x53464831#32 ∧ obsValue 6#3 sDone = 0#32 ∧ obsValue 7#3 sDone = 0#32 ∧
    obsValue 0#3 sDone = 0x00000014#32 ∧ obsValue 4#3 sDone = 0x69C8643C#32 := by decide

/-! ### Witnesses: for each statement with hypotheses, states and operands that meet them, each clause at a boundary -/

theorem test_witness_ignored_bits :
    0x00000080#32 &&& Claims.consumedBits 0x5#4 = 0xFFFFFF80#32 &&& Claims.consumedBits 0x5#4 ∧
    0x00000003#32 &&& Claims.consumedBits 0xA#4 = 0xFFFFFFFF#32 &&& Claims.consumedBits 0xA#4 ∧
    0x00000000#32 &&& Claims.consumedBits 0xF#4 = 0xFFFFFFFF#32 &&& Claims.consumedBits 0xF#4 := by decide

theorem test_witness_step_runs_command :
    let s := seeing [presentWord 0x100000000#36] State.reset
    (currentPins s).rst = false ∧ busy s = false ∧ (currentPins s).cmdValid = true ∧
    latencyOf (decode (portWord (currentPins s))) s ≤ 1 ∧
    (currentPins (sBusy 1)).rst = false ∧ (sBusy 1).inflight = some ⟨.finish, 1⟩ := by decide

theorem test_witness_placed_command :
    decodeTableWord 36 0xFFFFFFFFF = some .reservedF ∧ decodeTableWord 0 0 = some .nop ∧
    decodeTableWord 40 0x700636261 = some (.tail3 0x61#8 0x62#8 0x63#8) := by decide

/-- Latency 1, and latency 6 with k = 1 and k = 5. -/
theorem test_witness_latency :
    let s := seeing [presentWord 0x300000000#36] (sFin 0#32)
    let u := seeing [presentWord 0x300000000#36, Pins.quiet, presentWord 0x900000000#36] { sFin 0#32 with lat := slow }
    (busy s = false ∧ (currentPins s).cmdValid = true ∧ decode (portWord (currentPins s)) = .finish ∧
      1 = latencyOf .finish s ∧ ∀ p ∈ s.pins.take 1, p.rst = false) ∧
    (busy u = false ∧ (currentPins u).cmdValid = true ∧ decode (portWord (currentPins u)) = .finish ∧
      6 = latencyOf .finish u ∧ (∀ p ∈ u.pins.take 6, p.rst = false) ∧ 1 ≤ 1 ∧ 1 < 6 ∧ 1 ≤ 5 ∧ 5 < 6) ∧
    nextOf (runClock 6 u) = nextOf (exec .finish (advance^[6] u)) := by decide

theorem test_witness_command_stream :
    let commands := [Instr.init 1#32, .tail1 0x61#8]
    let s := seeing (commands.map (fun i => presentWord (encode i)) ++ [Pins.quiet]) State.reset
    s.lat = Latencies.singleCycle ∧ busy s = false ∧
    s.pins = commands.map (fun i => presentWord (encode i)) ++ [Pins.quiet] := by decide

theorem test_witness_reset_edge :
    (currentPins (seeing [resetPins] sDone)).rst = true ∧ (currentPins (seeing [resetPins] (sBusy 5))).rst = true := by decide

theorem test_witness_quiet_edge :
    (currentPins sDone).rst = false ∧ (currentPins sDone).cmdValid = false ∧ busy sDone = false := by decide

/-- While busy, in reset, and with nothing presented. -/
theorem test_witness_unaccepted_command :
    let p : Pins := ⟨false, true, 0x1#4, 4#32, 0#3⟩
    let q : Pins := ⟨false, false, 0xF#4, 0#32, 5#3⟩
    (p.rst = q.rst ∧ (p.cmdValid && cmdReady p (sBusy 5)) = false ∧ (q.cmdValid && cmdReady q (sBusy 5)) = false) ∧
    (resetPins.cmdValid && cmdReady resetPins sDone) = false ∧
    (q.cmdValid && cmdReady q sDone) = false ∧ (Pins.quiet.cmdValid && cmdReady Pins.quiet sDone) = false := by decide

theorem test_witness_step_keeps_parameters :
    nextOf (step (seeing [presentWord 0x000000000#36] (sBusy 5))) = some { sBusy 4 with draws := 1 } := by decide

theorem test_witness_outputs_in_reset :
    resetPins.rst = true ∧ busy (sBusy 5) = true ∧ (currentPins (seeing [resetPins] (sBusy 5))).rst = true ∧
    nextOf (step (seeing [resetPins] (sBusy 5))) = some { State.reset with lat := slow, draws := 1 } ∧
    Pins.quiet.rst = false := by decide

theorem test_witness_outputs_while_busy :
    Pins.quiet.rst = false ∧ busy (sBusy 1) = true ∧ Pins.quiet.obsSel = 0#3 ∧ (0 : Nat) ≠ 3 ∧
    (Pins.mk false false 0#4 0#32 5#3).obsSel ≠ 0#3 := by decide

theorem test_witness_outputs_when_not_busy :
    Pins.quiet.rst = false ∧ busy sDone = false ∧ busy sError = false ∧ busy State.reset = false ∧
    digestValid Pins.quiet sDone = true ∧ errPort Pins.quiet sError = true ∧
    irqPort Pins.quiet { sDone with ieDone := true } = true ∧ irqPort Pins.quiet { sError with ieErr := true } = true := by decide

theorem test_witness_digest_by_offsets :
    ([] : List Byte).length < 2 ^ 32 ∧ [0x61#8, 0x62#8, 0x63#8, 0x64#8, 0x65#8].length < 2 ^ 32 ∧
    digest [0x61#8, 0x62#8, 0x63#8, 0x64#8, 0x65#8] = 0x51ED072E#32 := by decide

theorem test_witness_init :
    stateUnused sUnused6.state = true ∧ stateUnused sUnused7.state = true ∧ stateUnused sError.state = false ∧
    (0#32).toNat = 0 ∧ (1#32).toNat ≠ 0 ∧ ¬ 0 < (3#32).toNat / 4 ∧ 0 < (4#32).toNat / 4 ∧ (0xFFFFFFFF#32).toNat ≠ 0 ∧
    (nextOf (exec (.init 3#32) sError)).map (·.state) = some .tailWait ∧
    (nextOf (exec (.init 4#32) sError)).map (·.state) = some .blocks ∧ busy sError = false ∧
    (nextOf (exec (.init 0#32) { sError with ieDone := true })).map irqFlag = some true := by decide

/-- CNT at 1 with and without a tail, at 2, and at its largest value; every other state. -/
theorem test_witness_block :
    (sBlocks 1#30 0#2).state = .blocks ∧ 0 < (sBlocks 1#30 0#2).cnt.toNat ∧ (sBlocks 1#30 2#2).rem ≠ 0#2 ∧
    0 < (sBlocks 2#30 0#2).cnt.toNat ∧ 0 < (sBlocks 0x3FFFFFFF#30 3#2).cnt.toNat ∧ State.reset.state = .idle ∧
    (sTail 1#2 0#32).state = .tailWait ∧ (sFin 0#32).state = .finWait ∧ sDone.state = .done ∧ sError.state = .error ∧
    stateUnused sUnused6.state = true ∧
    (nextOf (exec (.block 1#8 2#8 3#8 4#8) (sBlocks 1#30 2#2))).map (·.state) = some .tailWait := by decide

theorem test_witness_tail1 :
    (sTail 1#2 0#32).state = .tailWait ∧ (sTail 1#2 0#32).rem = 1#2 ∧ (sTail 2#2 0#32).rem ≠ 1#2 ∧ State.reset.state = .idle ∧
    (sBlocks 1#30 1#2).state = .blocks ∧ (sFin 0#32).state = .finWait ∧ sDone.state = .done ∧ sError.state = .error ∧
    stateUnused sUnused7.state = true := by decide

theorem test_witness_tail2 :
    (sTail 2#2 0#32).state = .tailWait ∧ (sTail 2#2 0#32).rem = 2#2 ∧ (sTail 1#2 0#32).rem ≠ 2#2 ∧ State.reset.state = .idle ∧
    (sBlocks 1#30 2#2).state = .blocks ∧ (sFin 0#32).state = .finWait ∧ sDone.state = .done ∧ sError.state = .error ∧
    stateUnused sUnused6.state = true := by decide

theorem test_witness_tail3 :
    (sTail 3#2 0#32).state = .tailWait ∧ (sTail 3#2 0#32).rem = 3#2 ∧ (sTail 2#2 0#32).rem ≠ 3#2 ∧ State.reset.state = .idle ∧
    (sBlocks 1#30 3#2).state = .blocks ∧ (sFin 0#32).state = .finWait ∧ sDone.state = .done ∧ sError.state = .error ∧
    stateUnused sUnused7.state = true := by decide

theorem test_witness_finish :
    (sFin 0#32).state = .finWait ∧ State.reset.state = .idle ∧ (sBlocks 1#30 0#2).state = .blocks ∧
    (sTail 1#2 0#32).state = .tailWait ∧ sDone.state = .done ∧ sError.state = .error ∧ stateUnused sUnused6.state = true ∧
    (nextOf (exec .finish { sFin 0#32 with ieDone := true })).map irqFlag = some true := by decide

theorem test_witness_nop :
    stateUnused State.reset.state = false ∧ stateUnused sError.state = false ∧ stateUnused sUnused6.state = true ∧
    cmdReady Pins.quiet sError = true := by decide

theorem test_witness_setacc :
    stateUnused (sTail 2#2 0#32).state = false ∧ stateUnused sError.state = false ∧ stateUnused sUnused7.state = true := by decide

theorem test_witness_clear :
    stateUnused sDone.state = false ∧ stateUnused (sBlocks 1#30 1#2).state = false ∧ stateUnused sUnused6.state = true ∧
    (nextOf (exec .clear (sBlocks 1#30 1#2))).map (fun t => (t.state, t.acc)) = some (.idle, 0x0000000C#32) := by decide

theorem test_witness_config :
    stateUnused sDone.state = false ∧ busy sDone = false ∧ (0x00000001#32).getLsbD 0 = true ∧
    stateUnused sError.state = false ∧ (0x00000002#32).getLsbD 1 = true ∧ stateUnused sUnused7.state = true := by decide

theorem test_witness_reserved :
    0x4#4 ∈ [0x4#4, 0xB#4, 0xC#4, 0xD#4, 0xE#4, 0xF#4] ∧ 0xF#4 ∈ [0x4#4, 0xB#4, 0xC#4, 0xD#4, 0xE#4, 0xF#4] ∧
    stateUnused State.reset.state = false ∧ State.reset.state ≠ .error ∧ stateUnused sDone.state = false ∧
    sDone.state ≠ .error ∧ sError.state = .error ∧ stateUnused sUnused6.state = true := by decide

theorem test_witness_each_reserved :
    stateUnused (sFin 0#32).state = false ∧ (sFin 0#32).state ≠ .error ∧
    (nextOf (exec .reservedC (sFin 0#32))).map (fun t => (t.cause, t.errOp)) = some (.illegalOp, 0xC#4) := by decide

theorem test_witness_error_entry :
    State.reset.state ≠ .error ∧
    nextOf (exec .finish State.reset) = some { State.reset with state := .error, cause := .notStarted, errOp := 0x3#4 } ∧
    nextOf (exec .nop sUnused6) = some { State.reset with state := .error, cause := .internal, errOp := 0x0#4 } := by decide

theorem test_witness_unused_state : sUnused6.state = .unused6 ∧ sUnused7.state = .unused7 := by decide

theorem test_witness_error_state :
    sError.state = .error ∧ (nextOf (exec (.init 0#32) sError)).map (·.state) = some .done ∧
    (nextOf (exec (.init 5#32) sError)).map (·.state) = some .blocks ∧
    (nextOf (exec .clear sError)).map (·.state) = some .idle := by decide

theorem test_witness_first_error :
    let commands := [Instr.finish, .reservedB, .setacc 1#32, .config true true, .nop]
    sError.state = .error ∧ (∀ i ∈ commands, Claims.leavesError i = false) ∧
    (nextOf (runCommands commands sError)).map (fun t => (t.state, t.cause, t.errOp)) = some (.error, .notStarted, 0x3#4) ∧
    Claims.leavesError .clear = true ∧ Claims.leavesError (.init 0#32) = true ∧
    (currentPins (seeing [resetPins] sError)).rst = true ∧ State.reset.state ≠ .error ∧
    (nextOf (exec (.tail1 0#8) State.reset)).map (·.state) = some .error := by decide

theorem test_witness_writers :
    (nextOf (exec (.init 4#32) State.reset)).map (fun t => (t.len, t.acc, t.cnt)) = some (4#32, 4#32, 1#30) ∧
    (nextOf (exec (.init 0#32) sDone)).map (·.result) = some 0#32 ∧
    (nextOf (exec .clear (sTail 3#2 0#32))).map (·.rem) = some 0#2 ∧
    (nextOf (exec (.config true true) sDone)).map (fun t => (t.ieDone, t.ieErr)) = some (true, true) ∧
    (nextOf (exec (.setacc 1#32) sUnused6)).map (fun t => (t.state, t.cause)) = some (.error, .internal) := by decide

theorem test_witness_idempotent :
    stateUnused sError.state = false ∧
    nextOf (exec (.setacc 7#32) sError) = some { sError with acc := 7#32 } ∧
    nextOf (exec (.config true false) sError) = some { sError with ieDone := true } ∧ nextOf (exec .nop sError) = some sError := by
  decide

theorem test_witness_sequencer_invariant :
    let s := seeing [presentWord 0x100000007#36] State.reset
    SeqInvariant s ∧ (nextOf (step s)).map (fun t => (t.state, t.cnt, t.rem)) = some (.blocks, 1#30, 3#2) := by decide

/-- In flight with 5 edges left of FINISH's 6, and with the last. -/
theorem test_witness_flight_invariant :
    FlightInvariant (sBusy 5) ∧ FlightInvariant (sBusy 1) ∧ FlightInvariant sDone ∧
    nextOf (step (sBusy 5)) = some { sBusy 4 with draws := 1 } ∧ (nextOf (step (sBusy 1))).map (·.inflight) = some none :=
  ⟨⟨by decide, by decide⟩, ⟨by decide, by decide⟩, trivial, by decide, by decide⟩

/-- Lengths with every remainder, k at 0 and at the last block. -/
theorem test_witness_canonical :
    ([] : List Byte).length < 2 ^ 32 ∧ [0x61#8].length % 4 = 1 ∧ [0x61#8, 0x62#8].length % 4 = 2 ∧
    [0x61#8, 0x62#8, 0x63#8].length % 4 = 3 ∧ 0 < [1#8, 2#8, 3#8, 4#8].length / 4 ∧
    canonical [0x61#8, 0x62#8, 0x63#8] = [.init 3#32, .tail3 0x61#8 0x62#8 0x63#8, .finish] := by decide

/-- k at the first command and at the last; the trace is spec/95's "abc". -/
theorem test_witness_canonical_yields :
    let bytes := [0x61#8, 0x62#8, 0x63#8]
    bytes.length < 2 ^ 32 ∧ stateUnused sError.state = false ∧ 0 < (canonical bytes).length ∧ 2 < (canonical bytes).length ∧
    (nextOf (runCommands (canonical bytes) sError)).map (·.result) = some 0xD2BE198A#32 ∧
    digestTrace bytes = [0x00000003#32, 0x63F4DF70#32, 0xD2BE198A#32] := by decide

/-- Three bytes with latencies that all differ (2 + 4 + 6 edges), and no byte. -/
theorem test_witness_clocked_run :
    let bytes := [0x61#8, 0x62#8, 0x63#8]
    let s := seeing (presentAll slow (canonical bytes) ++ [Pins.quiet]) { sError with lat := slow }
    bytes.length < 2 ^ 32 ∧ stateUnused s.state = false ∧ busy s = false ∧ s.lat.wellFormed = true ∧
    s.pins = presentAll s.lat (canonical bytes) ++ [Pins.quiet] ∧ Claims.runEdges s.lat bytes.length = 12 ∧
    (nextOf (runClock 12 s)).map (fun t => (t.result, t.state)) = some (0xD2BE198A#32, .done) ∧
    Claims.runEdges s.lat ([] : List Byte).length = 2 := by decide

theorem test_witness_new_run :
    stateUnused sDone.state = false ∧ stateUnused (sBlocks 9#30 1#2).state = false ∧
    (nextOf (runCommands [.init 1#32, .tail1 0x61#8, .finish] sDone)).map (·.result) = some 0x115EA782#32 ∧
    (nextOf (runCommands [.init 1#32, .tail1 0x61#8, .finish] (sBlocks 9#30 1#2))).map (·.state) = some .done := by decide

theorem test_witness_forged_result : (sFin 0x12345678#32).state = .finWait := by decide

/-- Each operand range at its last value and one beyond; the numbers of operands of TAIL on both sides of 1 to 3. -/
theorem test_witness_assembler :
    (2 ^ 32 - 1 < 2 ^ 32 ∧ ¬ 2 ^ 32 < 2 ^ 32) ∧ (255 < 256 ∧ ¬ 256 < 256) ∧ (1 < 2 ∧ ¬ 2 < 2) ∧ (15 < 16 ∧ ¬ 16 < 16) ∧
    ([] : List Nat).length = 0 ∧ 3 < [1, 2, 3, 4].length ∧ ((∀ b ∈ [0, 255], b < 256) ∧ [0, 255].length < 2 ^ 32) ∧
    ¬ (∀ b ∈ [0, 256], b < 256) := by decide

/-- R89, R90: words of lines at the ends of their operand ranges. -/
theorem test_assemble_words :
    assemble (.block 0 255 0 255) = some [0x2FF00FF00#36] ∧ assemble (.tail [255, 0]) = some [0x6000000FF#36] ∧
    assemble (.tail3 255 0 255) = some [0x700FF00FF#36] ∧ assemble (.blockw (2 ^ 32 - 1)) = some [0x2FFFFFFFF#36] ∧
    assemble (.config 1 0) = some [0xA00000001#36] ∧ assemble (.cmd 15 (2 ^ 32 - 1)) = some [0xFFFFFFFFF#36] := by decide

/-- A HASH of 2^32 bytes, each in range. -/
theorem test_witness_hash_too_long :
    (∀ b ∈ List.replicate (2 ^ 32) 0, b < 256) ∧ ¬ (List.replicate (2 ^ 32) 0).length < 2 ^ 32 :=
  ⟨fun b hb => by rw [List.eq_of_mem_replicate hb]; decide, by rw [List.length_replicate]; decide⟩

end Sys2Proof.Tests
end

section
/-! The verdicts of the common frame (R130, R175): when a command executes, and which causes it can raise. -/

namespace Sys2Proof.Machine

/-- A command executes when STATE is used, it is not dropped, and its own check passes (R130). -/
theorem frameVerdict_eq_run {d : Bool} {check : Option Cause} {s : State} :
    frameVerdict d check s = .run ↔
      stateUnused s.state = false ∧ ¬ (d = true ∧ s.state = .error) ∧ check = none := by
  cases hu : stateUnused s.state with
  | true => simp [frameVerdict, hu]
  | false =>
    by_cases hd : d = true ∧ s.state = .error
    · simp [frameVerdict, hd, stateUnused]
    · cases check <;> simp [frameVerdict, hu, hd]

/-- A command raises INTERNAL, or the cause of its own check (R176). -/
theorem eq_of_frameVerdict_eq_raise {d : Bool} {check : Option Cause} {s : State} {c : Cause}
    (h : frameVerdict d check s = .raise c) : c = .internal ∨ check = some c := by
  unfold frameVerdict at h
  split at h
  · exact .inl (by simpa using h.symm)
  · split at h
    · simp at h
    · cases check with
      | none => simp at h
      | some e => exact .inr (by simpa using h)

/-- BLOCK executes exactly in BLOCKS (R132). -/
theorem blockVerdict_eq_run {s : State} : blockVerdict s = .run ↔ s.state = .blocks := by
  rw [blockVerdict, frameVerdict_eq_run]
  cases s.state <;> simp [blockCheck, stateUnused]

/-- TAIL<k> executes exactly in TAILWAIT with REM = k (R133-R135). -/
theorem tailVerdict_eq_run {k : BitVec 2} {s : State} :
    tailVerdict k s = .run ↔ s.state = .tailWait ∧ s.rem = k := by
  rw [tailVerdict, frameVerdict_eq_run]
  cases s.state <;> simp [tailCheck, stateUnused]

/-- FINISH executes exactly in FINWAIT (R136). -/
theorem finishVerdict_eq_run {s : State} : finishVerdict s = .run ↔ s.state = .finWait := by
  rw [finishVerdict, frameVerdict_eq_run]
  cases s.state <;> simp [finishCheck, stateUnused]

theorem blockCheck_ne_some_none (q : SeqState) : blockCheck q ≠ some .none := by
  cases q <;> simp [blockCheck]

theorem tailCheck_ne_some_none (k r : BitVec 2) (q : SeqState) : tailCheck k r q ≠ some .none := by
  cases q with
  | tailWait => by_cases h : r = k <;> simp [tailCheck, h]
  | _ => simp [tailCheck]

theorem finishCheck_ne_some_none (q : SeqState) : finishCheck q ≠ some .none := by
  cases q <;> simp [finishCheck]

theorem frameVerdict_ne_raise_none {d : Bool} {check : Option Cause} {s : State}
    (h : check ≠ some .none) : frameVerdict d check s ≠ .raise .none :=
  fun hv => (eq_of_frameVerdict_eq_raise hv).elim Cause.noConfusion h

/-- Every protocol error has a cause other than 0 (R171, R174). -/
theorem ne_none_of_verdict_eq_raise {i : Instr} {s : State} {c : Cause} (h : verdict i s = .raise c) :
    c ≠ .none := by
  rintro rfl
  revert h
  cases i with
  | nop | init | setacc | clear | config => exact frameVerdict_ne_raise_none (check := none) (by simp)
  | block => exact frameVerdict_ne_raise_none (blockCheck_ne_some_none _)
  | tail1 | tail2 | tail3 => exact frameVerdict_ne_raise_none (tailCheck_ne_some_none _ _ _)
  | finish => exact frameVerdict_ne_raise_none (finishCheck_ne_some_none _)
  | reserved4 | reservedB | reservedC | reservedD | reservedE | reservedF =>
    exact frameVerdict_ne_raise_none (check := some .illegalOp) (by simp)

/-- What a command can do: it executes, is dropped, or enters ERROR with a cause other than 0 (R130). -/
theorem outcome_cases (i : Instr) (s : State) :
    (verdict i s = .run ∧ outcome i s = effect i s) ∨
    (verdict i s = .drop ∧ outcome i s = s) ∨
    ∃ c, verdict i s = .raise c ∧ c ≠ .none ∧ outcome i s = raiseError c i.opcode s := by
  cases hv : verdict i s with
  | run => exact .inl ⟨rfl, by simp [outcome, hv, applyVerdict]⟩
  | drop => exact .inr (.inl ⟨rfl, by simp [outcome, hv, applyVerdict]⟩)
  | raise c =>
    exact .inr (.inr ⟨c, rfl, ne_none_of_verdict_eq_raise hv, by simp [outcome, hv, applyVerdict]⟩)

end Sys2Proof.Machine
end

section
/-! The sequencer's invariants (R37): every operation on the state keeps them, so every command and every edge does. -/

namespace Sys2Proof.Machine

/-- A length that is not 0 and has no full block has tail bytes. -/
theorem remainder_ne_zero {n : Word} (hn : n ≠ 0#32) (hb : blockCount n = 0#30) : remainder n ≠ 0#2 := by
  intro hr
  have hb' := congrArg BitVec.toNat hb
  have hr' := congrArg BitVec.toNat hr
  simp [blockCount, remainder, Nat.shiftRight_eq_div_pow, Nat.and_two_pow_sub_one_eq_mod _ 2] at hb' hr'
  apply hn
  apply BitVec.eq_of_toNat_eq
  simp
  omega

theorem toNat_blockCount (n : Word) : (blockCount n).toNat = (n >>> 2).toNat := by
  simp [blockCount, Nat.shiftRight_eq_div_pow]
  omega

theorem seqInvariant_resetWith (lat : Latencies) (pins : List Pins) (draws : Nat) :
    SeqInvariant (State.resetWith lat pins draws) := by
  simp [SeqInvariant, State.resetWith, stateUnused]

theorem seqInvariant_advance {s : State} (h : SeqInvariant s) : SeqInvariant (advance s) := h

theorem seqInvariant_putInFlight {i : Instr} {n : Nat} {s : State} (h : SeqInvariant s) :
    SeqInvariant (putInFlight i n s) := h

theorem seqInvariant_endFlight {s : State} (h : SeqInvariant s) : SeqInvariant (endFlight s) := h

theorem seqInvariant_setAccumulator {v : Word} {s : State} (h : SeqInvariant s) :
    SeqInvariant (setAccumulator v s) := h

theorem seqInvariant_setEnables {d e : Bool} {s : State} (h : SeqInvariant s) :
    SeqInvariant (setEnables d e s) := h

theorem seqInvariant_raiseError {c : Cause} {op : Opcode} {s : State} (hc : c ≠ .none) (h : SeqInvariant s) :
    SeqInvariant (raiseError c op s) := by
  obtain ⟨-, -, -, -, -, -, -, hlen⟩ := h
  simpa [SeqInvariant, stateUnused, hc] using hlen

theorem seqInvariant_finishEmptyRun (s : State) : SeqInvariant (finishEmptyRun s) := by
  simp [SeqInvariant, stateUnused]

theorem seqInvariant_clearRun (s : State) : SeqInvariant (clearRun s) := by
  simp [SeqInvariant, stateUnused]

theorem seqInvariant_startRun {n : Word} (hn : n ≠ 0#32) (s : State) : SeqInvariant (startRun n s) := by
  by_cases hb : blockCount n = 0#30
  · simp [SeqInvariant, stateUnused, hb, remainder_ne_zero hn hb]
  · have hpos : 0 < (blockCount n).toNat := by bv_omega
    have hlen : (blockCount n).toNat ≤ (n >>> 2).toNat := (toNat_blockCount n).le
    simpa [SeqInvariant, stateUnused, hb, hpos] using hlen

/-- The last block leads to FINWAIT or TAILWAIT with CNT = 0, an earlier one leaves CNT > 0 in BLOCKS. -/
theorem seqInvariant_consumeBlock {b0 b1 b2 b3 : Byte} {s : State} (hs : s.state = .blocks) (h : SeqInvariant s) :
    SeqInvariant (consumeBlock b0 b1 b2 b3 s) := by
  obtain ⟨-, hblocks, -, -, -, hcause, herrOp, hlen⟩ := h
  have hnone : s.cause = .none := by simpa [hs] using hcause
  have hpos := hblocks hs
  have hle : (s.cnt - 1#30).toNat ≤ (s.len >>> 2).toNat := by
    have : (s.cnt - 1#30).toNat = s.cnt.toNat - 1 := by bv_omega
    omega
  by_cases h0 : s.cnt - 1#30 = 0#30
  · by_cases hr : s.rem = 0#2 <;> simp [SeqInvariant, stateUnused, h0, hr, hnone, herrOp hnone]
  · have hpos' : 0 < (s.cnt - 1#30).toNat := by bv_omega
    simpa [SeqInvariant, stateUnused, h0, hs, hnone, herrOp hnone] using And.intro hpos' hle

theorem seqInvariant_consumeTail {a : Word} {s : State} (hs : s.state = .tailWait) (h : SeqInvariant s) :
    SeqInvariant (consumeTail a s) := by
  obtain ⟨-, -, htail, -, -, hcause, herrOp, -⟩ := h
  have hnone : s.cause = .none := by simpa [hs] using hcause
  simp [SeqInvariant, stateUnused, (htail hs).1, hnone, herrOp hnone]

theorem seqInvariant_publishDigest {s : State} (hs : s.state = .finWait) (h : SeqInvariant s) :
    SeqInvariant (publishDigest s) := by
  obtain ⟨-, -, -, hfin, -, hcause, herrOp, -⟩ := h
  have hnone : s.cause = .none := by simpa [hs] using hcause
  simp [SeqInvariant, stateUnused, hfin (.inl hs), hnone, herrOp hnone]

/-- A command that executes keeps the invariants: its check gives the phase that it starts from. -/
theorem seqInvariant_effect {i : Instr} {s : State} (hv : verdict i s = .run) (h : SeqInvariant s) :
    SeqInvariant (effect i s) := by
  cases i with
  | init n =>
    by_cases hn : n = 0#32
    · simpa only [effect, if_pos hn] using seqInvariant_finishEmptyRun s
    · simpa only [effect, if_neg hn] using seqInvariant_startRun hn s
  | block => exact seqInvariant_consumeBlock (blockVerdict_eq_run.mp hv) h
  | tail1 | tail2 | tail3 => exact seqInvariant_consumeTail (tailVerdict_eq_run.mp hv).1 h
  | finish => exact seqInvariant_publishDigest (finishVerdict_eq_run.mp hv) h
  | clear => exact seqInvariant_clearRun s
  | setacc => exact seqInvariant_setAccumulator h
  | config => exact seqInvariant_setEnables h
  | nop | reserved4 | reservedB | reservedC | reservedD | reservedE | reservedF => exact h

/-- Every command keeps the invariants. -/
theorem seqInvariant_outcome {i : Instr} {s : State} (h : SeqInvariant s) : SeqInvariant (outcome i s) := by
  obtain ⟨hv, ho⟩ | ⟨-, ho⟩ | ⟨c, -, hc, ho⟩ := outcome_cases i s <;> rw [ho]
  · exact seqInvariant_effect hv h
  · exact h
  · exact seqInvariant_raiseError hc h

/-- Settles O50: `State.reset` is one of the states that a reset edge leaves. -/
theorem resetHasSequencerInvariant : Obligations.ResetHasSequencerInvariant :=
  ⟨seqInvariant_resetWith _ _ _, seqInvariant_resetWith⟩

/-- Settles O49: an edge resets, runs one command, or touches no register that the invariants read. -/
theorem stepKeepsSequencerInvariant : Obligations.StepKeepsSequencerInvariant := by
  intro s t h hstep
  have hadv : SeqInvariant (advance s) := seqInvariant_advance h
  rcases step_cases hstep with
    ⟨-, rfl⟩ | ⟨-, c, -, -, rfl⟩ | ⟨-, c, -, -, rfl⟩ | ⟨-, -, -, ⟨-, rfl⟩ | ⟨-, rfl⟩⟩ | ⟨-, -, -, rfl⟩
  · exact seqInvariant_resetWith _ _ _
  · exact seqInvariant_outcome (seqInvariant_endFlight hadv)
  · exact seqInvariant_putInFlight hadv
  · exact seqInvariant_outcome hadv
  · exact seqInvariant_putInFlight hadv
  · exact hadv

end Sys2Proof.Machine
end

section
/-! The fields that every edge moves alike, and the in-flight count (R31, R41, R211). -/

namespace Sys2Proof.Machine

@[simp] theorem outcome_inflight (i : Instr) (s : State) : (outcome i s).inflight = s.inflight :=
  have ⟨h, _⟩ := outcome_host i s; h
@[simp] theorem outcome_lat (i : Instr) (s : State) : (outcome i s).lat = s.lat :=
  have ⟨_, h, _⟩ := outcome_host i s; h
@[simp] theorem outcome_pins (i : Instr) (s : State) : (outcome i s).pins = s.pins :=
  have ⟨_, _, h, _⟩ := outcome_host i s; h
@[simp] theorem outcome_draws (i : Instr) (s : State) : (outcome i s).draws = s.draws :=
  have ⟨_, _, _, h⟩ := outcome_host i s; h

/-- Settles O16: what an edge does after `advance` touches none of the three fields. -/
theorem stepKeepsParameters : Obligations.StepKeepsParameters := by
  intro s t hstep
  rcases step_cases hstep with
    ⟨-, rfl⟩ | ⟨-, c, -, -, rfl⟩ | ⟨-, c, -, -, rfl⟩ | ⟨-, -, -, ⟨-, rfl⟩ | ⟨-, rfl⟩⟩ | ⟨-, -, -, rfl⟩ <;> simp

theorem flightInvariant_of_idle {s : State} (h : s.inflight = none) : FlightInvariant s := by
  simp [FlightInvariant, h]

/-- Putting a command in flight changes nothing that its latency depends on. -/
theorem flightInvariant_putInFlight {i : Instr} {n : Nat} {s : State} (hpos : 1 ≤ n) (hlt : n < latencyOf i s) :
    FlightInvariant (putInFlight i n s) := by
  have hlat : latencyOf i (putInFlight i n s) = latencyOf i s := latencyOf_congr rfl rfl rfl
  exact ⟨hpos, hlat ▸ hlt⟩

/-- Settles O51: acceptance puts the latency less 1 in flight, a busy edge counts down, and any other edge leaves nothing in
flight. -/
theorem stepKeepsFlightInvariant : Obligations.StepKeepsFlightInvariant := by
  intro s t h hstep
  have hlat : ∀ i, latencyOf i (advance s) = latencyOf i s := fun i => latencyOf_congr rfl rfl rfl
  rcases step_cases hstep with
    ⟨-, rfl⟩ | ⟨-, c, -, -, rfl⟩ | ⟨-, c, hc, hleft, rfl⟩ | ⟨-, hidle, -, ⟨-, rfl⟩ | ⟨hl, rfl⟩⟩ | ⟨-, hidle, -, rfl⟩
  · exact flightInvariant_of_idle rfl
  · exact flightInvariant_of_idle (by simp)
  · have hrange : 1 ≤ c.edgesLeft ∧ c.edgesLeft < latencyOf c.command s := by simpa [FlightInvariant, hc] using h
    exact flightInvariant_putInFlight (by omega) (by rw [hlat]; omega)
  · exact flightInvariant_of_idle (by simp [hidle])
  · exact flightInvariant_putInFlight (by omega) (by rw [hlat]; omega)
  · exact flightInvariant_of_idle hidle

end Sys2Proof.Machine
end

section
/-! The writers of each register (R22-R30). -/

namespace Sys2Proof.Machine

/-- A register that error entry keeps changes only where the command executes, and then by its effect. -/
theorem effect_ne_of_outcome_ne {α : Type} {f : State → α} {i : Instr} {s : State}
    (hraise : ∀ c op, f (raiseError c op s) = f s) (h : f (outcome i s) ≠ f s) :
    verdict i s = .run ∧ outcome i s = effect i s ∧ f (effect i s) ≠ f s := by
  obtain ⟨hv, ho⟩ | ⟨-, ho⟩ | ⟨c, -, -, ho⟩ := outcome_cases i s
  · exact ⟨hv, ho, ho ▸ h⟩
  · exact absurd (by rw [ho]) h
  · exact absurd (by rw [ho, hraise]) h

theorem exists_init_of_len_ne {i : Instr} {s : State} (h : (effect i s).len ≠ s.len) : ∃ n, i = .init n := by
  cases i <;> simp [effect] at h ⊢

theorem opcode_mem_of_acc_ne {i : Instr} {s : State} (h : (effect i s).acc ≠ s.acc) :
    i.opcode ∈ [0x1#4, 0x2#4, 0x5#4, 0x6#4, 0x7#4, 0x3#4, 0x8#4] := by
  cases i <;> simp [effect, Instr.opcode] at h ⊢

theorem opcode_mem_of_cnt_ne {i : Instr} {s : State} (h : (effect i s).cnt ≠ s.cnt) :
    i.opcode ∈ [0x1#4, 0x2#4, 0x9#4] := by
  cases i <;> simp [effect, Instr.opcode] at h ⊢

theorem opcode_mem_of_rem_ne {i : Instr} {s : State} (h : (effect i s).rem ≠ s.rem) :
    i.opcode ∈ [0x1#4, 0x9#4] := by
  cases i <;> simp [effect, Instr.opcode] at h ⊢

theorem finish_or_init_of_result_ne {i : Instr} {s : State} (h : (effect i s).result ≠ s.result) :
    i = .finish ∨ i = .init 0#32 := by
  cases i with
  | init n => by_cases hn : n = 0#32 <;> simp [effect, hn] at h ⊢
  | _ => simp [effect] at h ⊢

theorem exists_config_of_enables_ne {i : Instr} {s : State}
    (h : (effect i s).ieDone ≠ s.ieDone ∨ (effect i s).ieErr ≠ s.ieErr) : ∃ d e, i = .config d e := by
  cases i with
  | init n => by_cases hn : n = 0#32 <;> simp [effect, hn] at h
  | _ => simp [effect] at h ⊢

theorem opcode_mem_of_cause_ne_or_errOp_ne {i : Instr} {s : State}
    (h : (effect i s).cause ≠ s.cause ∨ (effect i s).errOp ≠ s.errOp) : i.opcode ∈ [0x1#4, 0x9#4] := by
  cases i <;> simp [effect, Instr.opcode] at h ⊢

/-- Of the commands that write ACC, SETACC alone can execute and leave ERROR standing. -/
theorem opcode_eq_setacc_of_acc_ne {i : Instr} {s : State} (hv : verdict i s = .run)
    (hacc : (effect i s).acc ≠ s.acc) (he : (effect i s).state = .error) : i.opcode = 0x8#4 := by
  cases i with
  | init n =>
    by_cases hn : n = 0#32
    · simp [effect, hn] at he
    · by_cases hb : blockCount n = 0#30 <;> simp [effect, hn, hb] at he
  | block =>
    have hs := blockVerdict_eq_run.mp hv
    by_cases h0 : s.cnt - 1#30 = 0#30
    · by_cases hr : s.rem = 0#2 <;> simp [effect, h0, hr] at he
    · simp [effect, h0, hs] at he
  | tail1 | tail2 | tail3 | finish => simp [effect] at he
  | setacc => rfl
  | _ => simp [effect] at hacc

/-- NOP, SETACC and CONFIG have no check of their own, so INTERNAL is the one error they raise. -/
theorem cause_eq_internal_of_state_ne {i : Instr} {s : State} (hi : i.opcode ∈ [0x0#4, 0x8#4, 0xA#4])
    (h : (outcome i s).state ≠ s.state) : (outcome i s).cause = .internal := by
  have hcontrol : verdict i s = controlVerdict s ∧ (effect i s).state = s.state := by
    cases i <;> simp [Instr.opcode] at hi <;> exact ⟨rfl, rfl⟩
  obtain ⟨hv, heff⟩ := hcontrol
  obtain ⟨-, ho⟩ | ⟨-, ho⟩ | ⟨c, hc, -, ho⟩ := outcome_cases i s <;> rw [ho] at h ⊢
  · exact absurd heff h
  · exact absurd rfl h
  · have hraise : controlVerdict s = .raise c := hv ▸ hc
    simpa using eq_of_frameVerdict_eq_raise hraise

/-- Settles O47: a dropped command changes nothing, error entry changes STATE, CAUSE and ERR_OP alone, and an executed command
has its effect, whose writers the lemmas above list register by register. -/
theorem onlyListedWritersChangeRegisters : Obligations.OnlyListedWritersChangeRegisters := by
  intro i s t hexec
  obtain rfl : outcome i s = t := by simpa [exec_eq] using hexec
  refine ⟨fun h => ?len, fun h => ?acc, fun h => ?cnt, fun h => ?rem, fun h => ?result, fun h => ?enables,
    fun h => ?cause, cause_eq_internal_of_state_ne⟩
  case len =>
    obtain ⟨-, -, heff⟩ := effect_ne_of_outcome_ne (f := State.len) (fun _ _ => rfl) h
    exact exists_init_of_len_ne heff
  case acc =>
    obtain ⟨hv, ho, heff⟩ := effect_ne_of_outcome_ne (f := State.acc) (fun _ _ => rfl) h
    exact ⟨opcode_mem_of_acc_ne heff, fun he => opcode_eq_setacc_of_acc_ne hv heff (ho ▸ he)⟩
  case cnt =>
    obtain ⟨-, -, heff⟩ := effect_ne_of_outcome_ne (f := State.cnt) (fun _ _ => rfl) h
    exact opcode_mem_of_cnt_ne heff
  case rem =>
    obtain ⟨-, -, heff⟩ := effect_ne_of_outcome_ne (f := State.rem) (fun _ _ => rfl) h
    exact opcode_mem_of_rem_ne heff
  case result =>
    obtain ⟨-, -, heff⟩ := effect_ne_of_outcome_ne (f := State.result) (fun _ _ => rfl) h
    exact finish_or_init_of_result_ne heff
  case enables =>
    obtain ⟨-, ho⟩ | ⟨-, ho⟩ | ⟨c, -, -, ho⟩ := outcome_cases i s <;> rw [ho] at h
    · exact exists_config_of_enables_ne h
    · simp at h
    · simp at h
  case cause =>
    obtain ⟨-, ho⟩ | ⟨-, ho⟩ | ⟨c, -, -, ho⟩ := outcome_cases i s <;> rw [ho] at h ⊢
    · exact .inr (opcode_mem_of_cause_ne_or_errOp_ne h)
    · simp at h
    · exact .inl rfl

end Sys2Proof.Machine
end

section
/-! The output ports, the observation map and STATUS (R34, R35, R38-R40). -/

namespace Sys2Proof.Machine

/-- Settles O19: with rst = 0 and BUSY = 0 every port is its register or its flag. -/
theorem outputsWhenNotBusy : Obligations.OutputsWhenNotBusy := by
  intro p read s hrst hbusy
  simp [cmdReady, digestPort, digestValid, errPort, irqPort, irqFlag, doneFlag, errFlag, obsData, hrst, hbusy]

/-- An edge reads rst, cmd_valid and the command word, and nothing else of the ports. -/
theorem clockEdge_congr {p q : Pins} {s : State} (hrst : p.rst = q.rst) (hvalid : p.cmdValid = q.cmdValid)
    (hword : portWord p = portWord q) : clockEdge p s = clockEdge q s := by
  simp only [clockEdge, hrst, hvalid, hword]

/-- Settles O20: the map is the table, and an edge does not read the selector. -/
theorem observationMap : Obligations.ObservationMap := by
  intro s
  have hcnt : (obsValue 3#3 s).toNat = s.cnt.toNat := by
    have hlt : s.cnt.toNat < 2 ^ 32 := s.cnt.isLt.trans (by decide)
    simpa [obsValue] using hlt
  exact ⟨rfl, rfl, rfl, hcnt, rfl, rfl, rfl, rfl, fun p sel rest => clockEdge_congr rfl rfl rfl⟩

/-! A STATUS field `v` whose lowest bit is `k`: what the word's field and bits of that place, and of any other, read. -/

theorem extractLsb'_field_same {w k : Nat} (v : BitVec w) (h : k + w ≤ 32) :
    (zext32 v <<< k).extractLsb' k w = v := by
  ext j hj
  have hlt : k + j < 32 := by omega
  simp [zext32, hlt, BitVec.getLsbD_eq_getElem hj]

theorem extractLsb'_field_disjoint {w k j n : Nat} (v : BitVec w) (h : k + w ≤ j ∨ j + n ≤ k) :
    (zext32 v <<< k).extractLsb' j n = 0#n := by
  ext b hb
  have hout : k ≤ j + b → w ≤ j + b - k := by omega
  simpa [zext32] using fun _ hk _ => BitVec.getLsbD_of_ge v _ (hout hk)

theorem getLsbD_field_same {k : Nat} (b : Bool) (h : k < 32) : (zext32 (BitVec.ofBool b) <<< k).getLsbD k = b := by
  simp [zext32, h]

theorem getLsbD_field_disjoint {w k j : Nat} (v : BitVec w) (h : k + w ≤ j ∨ j < k) :
    (zext32 v <<< k).getLsbD j = false := by
  have hout : k ≤ j → w ≤ j - k := by omega
  simpa [zext32] using fun _ hk _ => BitVec.getLsbD_of_ge v _ (hout hk)

/-- Settles O21: each field reads itself at its own place, and no other field reaches there. -/
theorem statusFields : Obligations.StatusFields := by
  intro s
  rw [statusWord, ← BitVec.shiftLeft_zero (zext32 (stateCode s.state))]
  simp (disch := omega) only [BitVec.extractLsb'_or, BitVec.getLsbD_or, extractLsb'_field_same, extractLsb'_field_disjoint,
    getLsbD_field_same, getLsbD_field_disjoint]
  have hreset : statusWord State.reset = 0x00000000#32 := by decide
  simp [doneFlag, errFlag, hreset]

end Sys2Proof.Machine
end

section
/-! The decoder reads back what the encoder writes (R82, R83, R89). -/

namespace Sys2Proof

open Machine

/-- A byte operand is a field of the argument, its lowest bit at bit `k`. -/
theorem byteAt_eq_field (k : Nat) (b : Byte) : byteAt k b = zext32 b <<< k := rfl

theorem lane_or (i : Nat) (a b : Word) : lane i (a ||| b) = lane i a ||| lane i b := BitVec.extractLsb'_or

theorem lane_byteAt_same {i k : Nat} (b : Byte) (hk : k = 8 * i) (hi : i < 4) : lane i (byteAt k b) = b := by
  rw [lane, byteAt_eq_field, hk]
  exact extractLsb'_field_same b (by omega)

theorem lane_byteAt_disjoint {i k : Nat} (b : Byte) (h : k + 8 ≤ 8 * i ∨ 8 * i + 8 ≤ k) : lane i (byteAt k b) = 0#8 := by
  rw [lane, byteAt_eq_field]
  exact extractLsb'_field_disjoint b h

/-- Decoding an encoded command gives the command back. -/
@[simp] theorem decode_encode (i : Instr) : decode (encode i) = i := by
  have hop : opcodeOf (encode i) = i.opcode := opcodeOf_commandWord _ _
  have harg : argOf (encode i) = i.arg := argOf_commandWord _ _
  simp only [decode, hop, harg]
  cases i with
  | block | tail1 | tail2 | tail3 =>
    simp (disch := omega) [Instr.opcode, Instr.arg, lane_or, lane_byteAt_same, lane_byteAt_disjoint]
  | _ => simp [Instr.opcode, Instr.arg]

end Sys2Proof
end

section
/-! Commands presented one an edge (R66, R69, R210, R211). -/

namespace Sys2Proof.Machine

@[simp] theorem portWord_presentWord (w : CommandWord) : portWord (presentWord w) = w := commandWord_fields w

theorem inflight_eq_none_of_not_busy {s : State} (h : busy s = false) : s.inflight = none := by
  simpa [busy] using h

/-- A block with every latency 1 never becomes busy (R217). -/
theorem latencyOf_singleCycle {i : Instr} {s : State} (h : s.lat = Latencies.singleCycle) : latencyOf i s = 1 := by
  have hexecuting : executingLatency i s.lat = 1 := by rw [h]; cases i <;> rfl
  have hctrl : s.lat.ctrl = 1 := by rw [h]; rfl
  rw [latencyOf, hexecuting, hctrl, ite_self]

/-- Without reset, a block that is not busy accepts the command on the port (R210). -/
theorem step_eq_acceptCommand {s : State} (hrst : (currentPins s).rst = false) (hidle : s.inflight = none)
    (hvalid : (currentPins s).cmdValid = true) :
    step s = acceptCommand (decode (portWord (currentPins s))) (advance s) := by
  simp [step, clockEdge, hrst, hidle, hvalid]

/-- With latency 1 a command's whole effect lands at the edge that accepts it (R211). -/
theorem acceptCommand_of_latency_le_one {i : Instr} {s : State} (h : latencyOf i s ≤ 1) :
    acceptCommand i s = .next (outcome i s) := by
  rw [acceptCommand, if_pos h, exec_eq]

/-- With every latency 1, an edge runs the command that the host presents at it. -/
theorem step_of_presented {i : Instr} {s : State} {rest : List Pins} (hlat : s.lat = Latencies.singleCycle)
    (hidle : s.inflight = none) (hpins : s.pins = presentWord (encode i) :: rest) :
    step s = .next (outcome i (advance s)) := by
  have hcurrent : currentPins s = presentWord (encode i) := by rw [currentPins, hpins]; rfl
  have haccept : step s = acceptCommand (decode (portWord (currentPins s))) (advance s) :=
    step_eq_acceptCommand (by rw [hcurrent]; rfl) hidle (by rw [hcurrent]; rfl)
  rw [haccept, hcurrent, portWord_presentWord, decode_encode]
  exact acceptCommand_of_latency_le_one (latencyOf_singleCycle hlat).le

theorem effect_advance (i : Instr) (s : State) : effect i (advance s) = advance (effect i s) := by
  cases i with
  | init n => by_cases h : n = 0#32 <;> simp only [effect, h, if_true, if_false] <;> rfl
  | _ => rfl

/-- What a command does to the block does not depend on the host's inputs or on the draw counter, and leaves both to the edge. -/
theorem outcome_advance (i : Instr) (s : State) : outcome i (advance s) = advance (outcome i s) := by
  have hv : verdict i (advance s) = verdict i s := verdict_congr rfl rfl
  rw [outcome, outcome, hv, effect_advance]
  cases verdict i s <;> rfl

theorem advance_iterate_outcome (k : Nat) (i : Instr) (s : State) :
    advance^[k] (outcome i s) = outcome i (advance^[k] s) :=
  have hcomm : Function.Commute advance (outcome i) := fun u => (outcome_advance i u).symm
  hcomm.iterate_left k s

/-- Settles O10, by induction on the commands: the first edge runs the first command, and the edges that are left for the others
move nothing that the first command reads or writes. -/
theorem commandStreamRunsInOrder : Obligations.CommandStreamRunsInOrder := by
  intro commands s rest hlat hbusy hpins
  have hidle := inflight_eq_none_of_not_busy hbusy
  clear hbusy
  induction commands generalizing s with
  | nil => rfl
  | cons i commands ih =>
    have hstep : step s = .next (outcome i (advance s)) := step_of_presented hlat hidle hpins
    have htail : (outcome i (advance s)).pins = commands.map (fun j => presentWord (encode j)) ++ rest := by
      rw [outcome_pins, advance_pins, hpins]; rfl
    calc runClock (commands.length + 1) s
      _ = runClock commands.length (outcome i (advance s)) := runClock_succ _ hstep
      _ = runCommands commands (advance^[commands.length] (outcome i (advance s))) :=
        ih _ (by simpa using hlat) htail (by simpa using hidle)
      _ = runCommands commands (outcome i (advance^[commands.length + 1] s)) := by
        rw [advance_iterate_outcome, Function.iterate_succ_apply]
      _ = runCommands (i :: commands) (advance^[commands.length + 1] s) := (runCommands_cons _ _ _).symm

end Sys2Proof.Machine
end

section
/-! Repeating a control command (R67). -/

namespace Sys2Proof.Machine

theorem outcome_of_run {i : Instr} {s : State} (hv : verdict i s = .run) : outcome i s = effect i s := by
  rw [outcome, hv]; rfl

/-- A command that has no check, keeps STATE, and has an idempotent effect is idempotent. -/
theorem outcome_idempotent {i : Instr} {s : State} (hu : stateUnused s.state = false)
    (hcontrol : ∀ u, verdict i u = controlVerdict u) (hstate : (effect i s).state = s.state)
    (heffect : effect i (effect i s) = effect i s) : outcome i (outcome i s) = outcome i s := by
  have hrun : outcome i s = effect i s := outcome_of_run ((hcontrol s).trans (controlVerdict_run hu))
  have hused : stateUnused (effect i s).state = false := by rw [hstate, hu]
  rw [hrun, outcome_of_run ((hcontrol _).trans (controlVerdict_run hused)), heffect]

/-- Settles O48: the three commands have no check, keep STATE, and write the same values again. -/
theorem controlCommandsAreIdempotent : Obligations.ControlCommandsAreIdempotent := by
  intro i s t hi hu hexec
  obtain rfl : outcome i s = t := by simpa [exec_eq] using hexec
  rw [exec_eq]
  congr 1
  obtain rfl | ⟨v, rfl⟩ | ⟨d, e, rfl⟩ := hi <;> exact outcome_idempotent hu (fun _ => rfl) rfl rfl

end Sys2Proof.Machine
end

section
/-! What decoding keeps of a command word, and what it drops (R83, R85, R88). -/

namespace Sys2Proof

open Machine

/-- The sixteen values of op, by the form of their arguments: none, one u32, four, one, two and three bytes, and CONFIG's two
bits (R82, R83). -/
theorem opcode_forms : ∀ op : Opcode,
    (op = 0x0#4 ∨ op = 0x3#4 ∨ op = 0x4#4 ∨ op = 0x9#4 ∨ op = 0xB#4 ∨ op = 0xC#4 ∨ op = 0xD#4 ∨ op = 0xE#4 ∨ op = 0xF#4) ∨
    (op = 0x1#4 ∨ op = 0x8#4) ∨ op = 0x2#4 ∨ op = 0x5#4 ∨ op = 0x6#4 ∨ op = 0x7#4 ∨ op = 0xA#4 := by decide

/-- The decoder's branch for each value of op answers a command of that opcode. -/
@[simp] theorem opcode_decode (w : CommandWord) : (decode w).opcode = opcodeOf w := by
  rw [decode]
  rcases opcode_forms (opcodeOf w) with
    (h | h | h | h | h | h | h | h | h) | (h | h) | h | h | h | h | h <;> rw [h] <;> rfl

/-- A field that is read from an argument and put back at its place keeps the bits of that place alone. -/
theorem field_extractLsb' (k n : Nat) (arg : Word) :
    zext32 (arg.extractLsb' k n) <<< k = arg &&& (zext32 (BitVec.allOnes n) <<< k) := by
  ext j hj
  by_cases hk : k ≤ j
  · have hplace : k + (j - k) = j := by omega
    simp [zext32, hplace, BitVec.getLsbD_eq_getElem hj, Bool.and_comm, Bool.and_assoc]
  · simp [zext32, Nat.lt_of_not_le hk]

theorem byteAt_lane {i k : Nat} (hk : k = 8 * i) (arg : Word) :
    byteAt k (lane i arg) = arg &&& (0x000000FF#32 <<< k) := by
  subst hk
  exact field_extractLsb' (8 * i) 8 arg

theorem ofBool_getLsbD_eq_extractLsb' (k : Nat) (arg : Word) : BitVec.ofBool (arg.getLsbD k) = arg.extractLsb' k 1 := by
  ext j hj
  obtain rfl : j = 0 := by omega
  simp

/-! Of each form's operands, the encoder puts back exactly the bits that the form consumes. -/

theorem arg_block_lanes (arg : Word) :
    (Instr.block (lane 0 arg) (lane 1 arg) (lane 2 arg) (lane 3 arg)).arg = arg &&& 0xFFFFFFFF#32 := by
  simp (disch := omega) [Instr.arg, byteAt_lane, ← BitVec.and_or_distrib_left]

theorem arg_tail1_lane (arg : Word) : (Instr.tail1 (lane 0 arg)).arg = arg &&& 0x000000FF#32 :=
  byteAt_lane rfl arg

theorem arg_tail2_lanes (arg : Word) : (Instr.tail2 (lane 0 arg) (lane 1 arg)).arg = arg &&& 0x0000FFFF#32 := by
  simp (disch := omega) [Instr.arg, byteAt_lane, ← BitVec.and_or_distrib_left]

theorem arg_tail3_lanes (arg : Word) :
    (Instr.tail3 (lane 0 arg) (lane 1 arg) (lane 2 arg)).arg = arg &&& 0x00FFFFFF#32 := by
  simp (disch := omega) [Instr.arg, byteAt_lane, ← BitVec.and_or_distrib_left]

theorem arg_config_bits (arg : Word) : (Instr.config (arg.getLsbD 0) (arg.getLsbD 1)).arg = arg &&& 0x00000003#32 := by
  have h0 : (BitVec.ofBool (arg.getLsbD 0)).setWidth 32 = arg &&& 1#32 :=
    BitVec.and_one_eq_setWidth_ofBool_getLsbD.symm
  have h1 : (BitVec.ofBool (arg.getLsbD 1)).setWidth 32 <<< 1 = arg &&& 2#32 := by
    rw [ofBool_getLsbD_eq_extractLsb']
    exact field_extractLsb' 1 1 arg
  rw [Instr.arg, h0, h1, ← BitVec.and_or_distrib_left]
  rfl

/-- What decoding keeps of an argument: the bits that the opcode's form consumes, by form (R83). -/
theorem arg_decode (op : Opcode) (arg : Word) :
    (decode (commandWord op arg)).arg = arg &&& Claims.consumedBits op := by
  have hnone : 0x00000000#32 = arg &&& 0x00000000#32 := BitVec.and_zero.symm
  have hword : arg = arg &&& 0xFFFFFFFF#32 := BitVec.and_allOnes.symm
  rw [decode, opcodeOf_commandWord, argOf_commandWord]
  rcases opcode_forms op with
    (rfl | rfl | rfl | rfl | rfl | rfl | rfl | rfl | rfl) | (rfl | rfl) | rfl | rfl | rfl | rfl | rfl
  iterate 9 exact hnone
  iterate 2 exact hword
  · exact arg_block_lanes arg
  · exact arg_tail1_lane arg
  · exact arg_tail2_lanes arg
  · exact arg_tail3_lanes arg
  · exact arg_config_bits arg

/-- Settles O1: each operand is a field of the argument, and no other operand reaches there. -/
theorem decodeInvertsEncode : Obligations.DecodeInvertsEncode := decode_encode

/-- Settles O3: the decoder's branches test op alone. -/
theorem decodeSelectsByOpcode : Obligations.DecodeSelectsByOpcode := opcode_decode

/-- Settles O2: the encoder puts the same op back, and of the argument what decoding keeps. -/
theorem encodeDecodeClearsOnlyIgnoredBits : Obligations.EncodeDecodeClearsOnlyIgnoredBits := by
  intro op arg
  rw [encode, opcode_decode, opcodeOf_commandWord, arg_decode]

/-- Words that differ only in ignored bits decode to one command, since decoding is decided by what encoding puts back. -/
theorem decode_congr {op : Opcode} {a b : Word} (h : a &&& Claims.consumedBits op = b &&& Claims.consumedBits op) :
    decode (commandWord op a) = decode (commandWord op b) := by
  have hencode : encode (decode (commandWord op a)) = encode (decode (commandWord op b)) := by
    rw [encodeDecodeClearsOnlyIgnoredBits op a, encodeDecodeClearsOnlyIgnoredBits op b, h]
  rw [← decode_encode (decode (commandWord op a)), hencode, decode_encode]

/-- An edge reads the command word on the port only through the decoder. -/
theorem clockEdge_congr_decode {p q : Pins} {s : State} (hrst : p.rst = q.rst) (hvalid : p.cmdValid = q.cmdValid)
    (hdecode : decode (portWord p) = decode (portWord q)) : clockEdge p s = clockEdge q s := by
  simp only [clockEdge, hrst, hvalid, hdecode]

/-- Settles O4: the two words decode to one command, and an edge reads the word only through the decoder. -/
theorem ignoredArgumentBitsHaveNoEffect : Obligations.IgnoredArgumentBitsHaveNoEffect := by
  intro op a b s valid sel rest h
  have hdecode := decode_congr h
  exact ⟨hdecode, clockEdge_congr_decode rfl rfl hdecode⟩

/-- Settles O5: each word is read by its op and its lanes. -/
theorem specWordsDecode : Obligations.SpecWordsDecode := by
  unfold Obligations.SpecWordsDecode
  decide

end Sys2Proof
end

section
/-! What a line of assembly encodes, as numbers (R80, R89, R90). -/

namespace Sys2Proof.Machine

/-! ### Arguments as numbers -/

theorem toNat_commandWord (op : Opcode) (arg : Word) : (commandWord op arg).toNat = op.toNat * 2 ^ 32 + arg.toNat := by
  rw [commandWord, BitVec.toNat_append, ← Nat.shiftLeft_add_eq_or_of_lt arg.isLt, Nat.shiftLeft_eq]

theorem toNat_byteAt {k : Nat} (b : Byte) (hk : k ≤ 24) : (byteAt k b).toNat = b.toNat * 2 ^ k := by
  have hb : b.toNat < 2 ^ 8 := b.isLt
  have hfit : b.toNat * 2 ^ k < 2 ^ 8 * 2 ^ 24 :=
    Nat.mul_lt_mul_of_lt_of_le hb (Nat.pow_le_pow_right (by decide) hk) (by decide)
  rw [byteAt, BitVec.toNat_shiftLeft, BitVec.toNat_setWidth_of_le (by decide), Nat.shiftLeft_eq]
  exact Nat.mod_eq_of_lt hfit

/-- A byte beside an argument that ends below it is added to it. -/
theorem toNat_or_byteAt {k : Nat} {arg : Word} (b : Byte) (hk : k ≤ 24) (harg : arg.toNat < 2 ^ k) :
    (arg ||| byteAt k b).toNat = arg.toNat + b.toNat * 2 ^ k := by
  rw [BitVec.toNat_or, toNat_byteAt b hk, Nat.or_comm, ← Nat.shiftLeft_eq, ← Nat.shiftLeft_add_eq_or_of_lt harg, Nat.add_comm]

theorem toNat_arg_tail1 (b0 : Byte) : (Instr.tail1 b0).arg.toNat = b0.toNat :=
  (toNat_byteAt b0 (by decide)).trans (Nat.mul_one _)

theorem toNat_arg_tail2 (b0 b1 : Byte) : (Instr.tail2 b0 b1).arg.toNat = b0.toNat + b1.toNat * 2 ^ 8 := by
  have hlow := toNat_arg_tail1 b0
  have hsum := toNat_or_byteAt (k := 8) (arg := (Instr.tail1 b0).arg) b1 (by decide) (by omega)
  rwa [hlow] at hsum

theorem toNat_arg_tail3 (b0 b1 b2 : Byte) :
    (Instr.tail3 b0 b1 b2).arg.toNat = b0.toNat + b1.toNat * 2 ^ 8 + b2.toNat * 2 ^ 16 := by
  have hlow := toNat_arg_tail2 b0 b1
  have hsum := toNat_or_byteAt (k := 16) (arg := (Instr.tail2 b0 b1).arg) b2 (by decide) (by omega)
  rwa [hlow] at hsum

theorem toNat_arg_block (b0 b1 b2 b3 : Byte) :
    (Instr.block b0 b1 b2 b3).arg.toNat = b0.toNat + b1.toNat * 2 ^ 8 + b2.toNat * 2 ^ 16 + b3.toNat * 2 ^ 24 := by
  have hlow := toNat_arg_tail3 b0 b1 b2
  have hsum := toNat_or_byteAt (k := 24) (arg := (Instr.tail3 b0 b1 b2).arg) b3 (by decide) (by omega)
  rwa [hlow] at hsum

theorem toNat_arg_config (d e : Bool) : (Instr.config d e).arg.toNat = d.toNat + e.toNat * 2 := by
  cases d <;> cases e <;> rfl

/-- An operand in range is the number that its field holds. -/
theorem toNat_ofNat_of_lt {w n : Nat} (h : n < 2 ^ w) : (BitVec.ofNat w n).toNat = n :=
  (BitVec.toNat_ofNat n w).trans (Nat.mod_eq_of_lt h)

theorem toNat_beq_one {n : Nat} (h : n < 2) : (n == 1).toNat = n := by
  obtain rfl | rfl : n = 0 ∨ n = 1 := by omega
  · rfl
  · rfl

/-! ### Lines -/

theorem wellFormed_tail {bytes : List Nat} :
    (AsmLine.tail bytes).wellFormed = true ↔ (∀ b ∈ bytes, b < 256) ∧ 1 ≤ bytes.length ∧ bytes.length ≤ 3 := by
  simp [AsmLine.wellFormed, byteInRange, and_assoc]

theorem wellFormed_hash {bytes : List Nat} :
    (AsmLine.hash bytes).wellFormed = true ↔ (∀ b ∈ bytes, b < 256) ∧ bytes.length < 2 ^ 32 := by
  simp [AsmLine.wellFormed, byteInRange, wordInRange]

/-- `assemble` sees of a line its check and its words. -/
theorem assemble_congr {line line' : AsmLine} (hcheck : line.wellFormed = line'.wellFormed)
    (hwords : lineWords line = lineWords line') : assemble line = assemble line' := by
  rw [assemble, assemble, hcheck, hwords]

/-- A line that writes the one word of `o` and `a`, and whose check is the range of its operands, encodes the numbers that `o` and
`a` are there. -/
theorem encodesWhen_of_lineWords {line : AsmLine} {inRange : Prop} {op arg : Nat} (o : Opcode) (a : Word)
    (hwords : lineWords line = [commandWord o a]) (hcheck : line.wellFormed = true ↔ inRange)
    (hop : inRange → o.toNat = op) (harg : inRange → a.toNat = arg) : Claims.encodesWhen line inRange op arg := by
  constructor
  · intro h
    refine ⟨commandWord o a, ?_, ?_⟩
    · rw [assemble, if_pos (hcheck.mpr h), hwords]
    · rw [toNat_commandWord, hop h, harg h]
  · intro h
    rw [assemble, if_neg (mt hcheck.mp h)]

/-- A line that writes one command. -/
theorem encodesWhen_of_command {line : AsmLine} {inRange : Prop} {arg : Nat} (i : Instr)
    (hwords : lineWords line = [encode i]) (hcheck : line.wellFormed = true ↔ inRange)
    (harg : inRange → i.arg.toNat = arg) : Claims.encodesWhen line inRange i.opcode.toNat arg :=
  encodesWhen_of_lineWords _ _ hwords hcheck (fun _ => rfl) harg

/-- A line that has no operands. -/
theorem encodesWhen_of_noOperands {line : AsmLine} (i : Instr) (hwords : lineWords line = [encode i])
    (hcheck : line.wellFormed = true) (harg : i.arg = 0#32) : Claims.encodesWhen line True i.opcode.toNat 0 :=
  encodesWhen_of_command i hwords (iff_true_intro hcheck) fun _ => by rw [harg]; rfl

/-- A line whose one operand is the whole argument. -/
theorem encodesWhen_of_wordOperand {line : AsmLine} {n : Nat} (o : Opcode)
    (hwords : lineWords line = [commandWord o (BitVec.ofNat 32 n)]) (hcheck : line.wellFormed = wordInRange n) :
    Claims.encodesWhen line (n < 2 ^ 32) o.toNat n :=
  encodesWhen_of_lineWords _ _ hwords (by rw [hcheck, wordInRange, decide_eq_true_iff]) (fun _ => rfl) toNat_ofNat_of_lt

theorem encodesWhen_block (b0 b1 b2 b3 : Nat) :
    Claims.encodesWhen (.block b0 b1 b2 b3) (b0 < 256 ∧ b1 < 256 ∧ b2 < 256 ∧ b3 < 256) 2
      (b0 + b1 * 2 ^ 8 + b2 * 2 ^ 16 + b3 * 2 ^ 24) := by
  refine encodesWhen_of_command (.block _ _ _ _) rfl (by simp [AsmLine.wellFormed, byteInRange, and_assoc]) ?_
  rintro ⟨h0, h1, h2, h3⟩
  rw [toNat_arg_block, toNat_ofNat_of_lt h0, toNat_ofNat_of_lt h1, toNat_ofNat_of_lt h2,
    toNat_ofNat_of_lt h3]

theorem encodesWhen_tail1 (b0 : Nat) : Claims.encodesWhen (.tail1 b0) (b0 < 256) 5 b0 := by
  refine encodesWhen_of_command (.tail1 _) rfl (by simp [AsmLine.wellFormed, byteInRange]) fun h0 => ?_
  rw [toNat_arg_tail1, toNat_ofNat_of_lt h0]

theorem encodesWhen_tail2 (b0 b1 : Nat) :
    Claims.encodesWhen (.tail2 b0 b1) (b0 < 256 ∧ b1 < 256) 6 (b0 + b1 * 2 ^ 8) := by
  refine encodesWhen_of_command (.tail2 _ _) rfl (by simp [AsmLine.wellFormed, byteInRange]) ?_
  rintro ⟨h0, h1⟩
  rw [toNat_arg_tail2, toNat_ofNat_of_lt h0, toNat_ofNat_of_lt h1]

theorem encodesWhen_tail3 (b0 b1 b2 : Nat) :
    Claims.encodesWhen (.tail3 b0 b1 b2) (b0 < 256 ∧ b1 < 256 ∧ b2 < 256) 7 (b0 + b1 * 2 ^ 8 + b2 * 2 ^ 16) := by
  refine encodesWhen_of_command (.tail3 _ _ _) rfl (by simp [AsmLine.wellFormed, byteInRange, and_assoc]) ?_
  rintro ⟨h0, h1, h2⟩
  rw [toNat_arg_tail3, toNat_ofNat_of_lt h0, toNat_ofNat_of_lt h1, toNat_ofNat_of_lt h2]

theorem encodesWhen_config (d e : Nat) : Claims.encodesWhen (.config d e) (d < 2 ∧ e < 2) 10 (d + e * 2) := by
  refine encodesWhen_of_command (.config _ _) rfl (by simp [AsmLine.wellFormed, bitInRange]) ?_
  rintro ⟨hd, he⟩
  rw [toNat_arg_config, toNat_beq_one hd, toNat_beq_one he]

theorem encodesWhen_cmd (op arg : Nat) : Claims.encodesWhen (.cmd op arg) (op < 16 ∧ arg < 2 ^ 32) op arg :=
  encodesWhen_of_lineWords _ _ rfl (by simp [AsmLine.wellFormed, opcodeInRange, wordInRange])
    (fun ⟨hop, _⟩ => toNat_ofNat_of_lt hop) (fun ⟨_, harg⟩ => toNat_ofNat_of_lt harg)

/-- TAIL needs 1, 2 or 3 operands (log entry 12). -/
theorem assemble_tail_eq_none {bytes : List Nat} (h : bytes.length = 0 ∨ 3 < bytes.length) :
    assemble (.tail bytes) = none := by
  refine if_neg fun hcheck => ?_
  obtain ⟨-, hmin, hmax⟩ := wellFormed_tail.mp hcheck
  omega

/-- Settles O57: every line but HASH writes one word, whose op and argument are the line's numbers where its check passes. -/
theorem assemblerEncodesLines : Obligations.AssemblerEncodesLines := by
  refine ⟨⟨?nop, ?finish, ?clear, ?wait⟩, fun n => ⟨?init, ?setacc, ?blockw⟩, encodesWhen_block,
    fun b0 => ⟨encodesWhen_tail1 b0, ?tail1⟩, fun b0 b1 => ⟨encodesWhen_tail2 b0 b1, ?tail2⟩,
    fun b0 b1 b2 => ⟨encodesWhen_tail3 b0 b1 b2, ?tail3⟩, fun _ => assemble_tail_eq_none, encodesWhen_config,
    encodesWhen_cmd, fun bytes => ⟨fun h => ?hash, fun h => ?hashRefused⟩⟩
  case nop => exact encodesWhen_of_noOperands .nop rfl rfl rfl
  case finish => exact encodesWhen_of_noOperands .finish rfl rfl rfl
  case clear => exact encodesWhen_of_noOperands .clear rfl rfl rfl
  case wait => exact encodesWhen_of_noOperands .nop rfl rfl rfl
  case init => exact encodesWhen_of_wordOperand 0x1#4 rfl rfl
  case setacc => exact encodesWhen_of_wordOperand 0x8#4 rfl rfl
  case blockw => exact encodesWhen_of_wordOperand 0x2#4 rfl rfl
  case tail1 => exact assemble_congr (by simp [AsmLine.wellFormed]) rfl
  case tail2 => exact assemble_congr (by simp [AsmLine.wellFormed]) rfl
  case tail3 => exact assemble_congr (by simp [AsmLine.wellFormed, Bool.and_assoc]) rfl
  case hash => exact if_pos (wellFormed_hash.mpr h)
  case hashRefused => exact if_neg (mt wellFormed_hash.mp h)

end Sys2Proof.Machine
end

section
/-! The accumulator primitives and the operand loader as integers (R100-R105), and ROUND and TAILMIX by the primitives
(R106-R113). -/

namespace Sys2Proof.Machine

/-! ### The primitives -/

theorem toNat_add (a x : Word) : (add a x).toNat = (a.toNat + x.toNat) % 2 ^ 32 := BitVec.toNat_add a x

theorem toNat_xshl (a : Word) (k : Nat) : (xshl a k).toNat = a.toNat ^^^ (a.toNat * 2 ^ k % 2 ^ 32) := by
  rw [xshl, BitVec.toNat_xor, BitVec.toNat_shiftLeft, Nat.shiftLeft_eq]

theorem toNat_ashr (a : Word) (k : Nat) : (ashr a k).toNat = (a.toNat + a.toNat / 2 ^ k) % 2 ^ 32 := by
  rw [ashr, BitVec.toNat_add, BitVec.toNat_ushiftRight, Nat.shiftRight_eq_div_pow]

theorem toNat_xin (a x : Word) : (xin a x).toNat = a.toNat ^^^ x.toNat := BitVec.toNat_xor a x

/-- Settles O23: each primitive is one word operation or two, and each of these is a known number. -/
theorem primitivesAreModular : Obligations.PrimitivesAreModular :=
  fun a x k => ⟨toNat_add a x, toNat_xshl a k, toNat_ashr a k, toNat_xin a x⟩

/-! ### The word loader -/

theorem toNat_zext32_byte (b : Byte) : (zext32 b).toNat = b.toNat := BitVec.toNat_setWidth_of_le (by decide)

theorem toNat_load16 (b0 b1 : Byte) : (load16 b0 b1).toNat = b0.toNat + 2 ^ 8 * b1.toNat := by
  have hlow : (zext32 b0).toNat < 2 ^ 8 := by rw [toNat_zext32_byte]; exact b0.isLt
  have hsum := toNat_or_byteAt b1 (by decide) hlow
  rw [toNat_zext32_byte, Nat.mul_comm] at hsum
  exact hsum

theorem toNat_load16_lt (b0 b1 : Byte) : (load16 b0 b1).toNat < 2 ^ 16 := by
  rw [toNat_load16]
  omega

theorem toNat_lane (i : Nat) (arg : Word) : (lane i arg).toNat = arg.toNat / 2 ^ (8 * i) % 2 ^ 8 := by
  rw [lane, BitVec.extractLsb'_toNat, Nat.shiftRight_eq_div_pow]

/-- Two neighbouring lanes, the earlier one first, are a field of 16 bits (R63, R105). -/
theorem load16_lanes (i : Nat) (arg : Word) :
    load16 (lane i arg) (lane (i + 1) arg) = (arg.extractLsb' (8 * i) 16).setWidth 32 := by
  have hnext : arg.toNat / 2 ^ (8 * (i + 1)) = arg.toNat / 2 ^ (8 * i) / 2 ^ 8 := by
    rw [Nat.div_div_eq_div_mul, ← Nat.pow_add, Nat.mul_succ]
  apply BitVec.eq_of_toNat_eq
  rw [toNat_load16, toNat_lane, toNat_lane, hnext, BitVec.toNat_setWidth_of_le (by decide), BitVec.extractLsb'_toNat,
    Nat.shiftRight_eq_div_pow]
  omega

/-- Settles O24: the second byte stands above the first, and two lanes that follow each other are one field. -/
theorem wordLoaderIsLittleEndian : Obligations.WordLoaderIsLittleEndian :=
  ⟨fun b0 b1 => ⟨toNat_load16 b0 b1, Nat.le_of_lt_succ (toNat_load16_lt b0 b1)⟩,
    fun arg => ⟨load16_lanes 0 arg, load16_lanes 2 arg⟩⟩

/-! ### The shifted operands -/

/-- A word of 16 bits has room for the shift of R106 (R104). -/
theorem toNat_blockXorIn {hi16 : Word} (h : hi16.toNat < 2 ^ 16) : (blockXorIn hi16).toNat = hi16.toNat * 2 ^ 11 := by
  rw [blockXorIn, BitVec.toNat_shiftLeft, Nat.shiftLeft_eq]
  omega

theorem toNat_tail3XorIn (b2 : Byte) : (tail3XorIn b2).toNat = b2.toNat * 2 ^ 18 := toNat_byteAt b2 (by decide)

/-- Settles O25: 16 bits moved by 11 and 8 bits moved by 18 stay below 2^32. -/
theorem shiftedOperandsLoseNoBit : Obligations.ShiftedOperandsLoseNoBit :=
  ⟨fun b0 b1 => toNat_blockXorIn (toNat_load16_lt b0 b1), toNat_tail3XorIn⟩

/-! ### ROUND and TAILMIX -/

/-- ROUND's steps by the primitives: its two xors may change places (R107). -/
theorem blockRound_eq_primitives (acc lo16 hi16 : Word) :
    blockRound acc lo16 hi16 = ashr (xin (xshl (add acc lo16) 16) (blockXorIn hi16)) 11 := by
  have hxor (a x : Word) : (a <<< 16) ^^^ xin x a = xin (xshl a 16) x := by
    rw [xin, xin, xshl, BitVec.xor_comm x a, ← BitVec.xor_assoc, BitVec.xor_comm (a <<< 16) a]
  rw [blockRound, hxor]

/-- Settles O26: the chain is ROUND's own, with the two xors in the other order. -/
theorem roundIsPrimitiveChain : Obligations.RoundIsPrimitiveChain :=
  fun acc lo16 hi16 => blockRound_eq_primitives acc (zext32 lo16) (zext32 hi16)

@[simp] theorem tailMix_zero (acc : Word) (b0 b1 b2 : Byte) : tailMix acc 0#2 b0 b1 b2 = acc := rfl
@[simp] theorem tailMix_one (acc : Word) (b0 b1 b2 : Byte) : tailMix acc 1#2 b0 b1 b2 = tailMix1 acc b0 := rfl
@[simp] theorem tailMix_two (acc : Word) (b0 b1 b2 : Byte) : tailMix acc 2#2 b0 b1 b2 = tailMix2 acc b0 b1 := rfl
@[simp] theorem tailMix_three (acc : Word) (b0 b1 b2 : Byte) : tailMix acc 3#2 b0 b1 b2 = tailMix3 acc b0 b1 b2 := rfl

/-- Settles O27: the remainder selects the path, and each path is written by the primitives. -/
theorem tailMultiplexerPaths : Obligations.TailMultiplexerPaths :=
  fun acc b0 b1 b2 =>
    ⟨tailMix_zero acc b0 b1 b2, tailMix_one acc b0 b1 b2, tailMix_two acc b0 b1 b2, tailMix_three acc b0 b1 b2⟩

end Sys2Proof.Machine
end

section
/-! The reference function by offsets into the bytes (R120), and on the empty sequence (R121). -/

namespace Sys2Proof.Machine

/-! ### The main loop and the tail -/

/-- The round over the bytes 4i to 4i+3 (R120 step 5). -/
def roundAtOffset (bytes : List Byte) (acc : Word) (i : Nat) : Word :=
  blockRound acc (load16 (bytes.getD (4 * i) 0) (bytes.getD (4 * i + 1) 0))
    (load16 (bytes.getD (4 * i + 2) 0) (bytes.getD (4 * i + 3) 0))

theorem roundAtOffset_zero (b0 b1 b2 b3 : Byte) (rest : List Byte) (acc : Word) :
    roundAtOffset (b0 :: b1 :: b2 :: b3 :: rest) acc 0 = blockRound acc (load16 b0 b1) (load16 b2 b3) := rfl

/-- Past the first four bytes, block i + 1 is block i of the others. -/
theorem roundAtOffset_succ (b0 b1 b2 b3 : Byte) (rest : List Byte) (acc : Word) (i : Nat) :
    roundAtOffset (b0 :: b1 :: b2 :: b3 :: rest) acc (i + 1) = roundAtOffset rest acc i := rfl

/-- The main loop takes one round for each full block, in order. -/
theorem digestRounds_eq_foldl (acc : Word) :
    ∀ bytes : List Byte, digestRounds acc bytes = (List.range (bytes.length / 4)).foldl (roundAtOffset bytes) acc
  | [] | [_] | [_, _] | [_, _, _] => by simp [digestRounds]
  | b0 :: b1 :: b2 :: b3 :: rest => by
    have hblocks : (b0 :: b1 :: b2 :: b3 :: rest).length / 4 = rest.length / 4 + 1 :=
      Nat.add_div_right rest.length (show 0 < 4 by decide)
    rw [hblocks, List.range_succ_eq_map, List.foldl_cons, List.foldl_map, roundAtOffset_zero, digestRounds,
      digestRounds_eq_foldl _ rest]
    simp only [Nat.succ_eq_add_one, roundAtOffset_succ]

/-- The main loop leaves what stands from the offset 4 * (n / 4) on. -/
theorem tailBytes_eq_drop : ∀ bytes : List Byte, tailBytes bytes = bytes.drop (4 * (bytes.length / 4))
  | [] | [_] | [_, _] | [_, _, _] => by simp [tailBytes]
  | b0 :: b1 :: b2 :: b3 :: rest => by
    have hoffset : 4 * ((b0 :: b1 :: b2 :: b3 :: rest).length / 4) = 4 * (rest.length / 4) + 4 := by
      rw [List.length_cons, List.length_cons, List.length_cons, List.length_cons]
      omega
    rw [hoffset, tailBytes, tailBytes_eq_drop rest]
    rfl

theorem length_tailBytes (bytes : List Byte) : (tailBytes bytes).length = bytes.length % 4 := by
  rw [tailBytes_eq_drop, List.length_drop]
  omega

theorem getD_tailBytes (bytes : List Byte) (j : Nat) :
    (tailBytes bytes).getD j 0 = bytes.getD (4 * (bytes.length / 4) + j) 0 := by
  rw [tailBytes_eq_drop, List.getD_eq_getElem?_getD, List.getElem?_drop, List.getD_eq_getElem?_getD]

/-- Step 6 of Digest by the length and the offset of what the main loop leaves. -/
theorem digestTail_tailBytes (acc : Word) (bytes : List Byte) :
    digestTail acc (tailBytes bytes) =
      tailMix acc (BitVec.ofNat 2 (bytes.length % 4)) (bytes.getD (4 * (bytes.length / 4)) 0)
        (bytes.getD (4 * (bytes.length / 4) + 1) 0) (bytes.getD (4 * (bytes.length / 4) + 2) 0) := by
  rw [digestTail, length_tailBytes, getD_tailBytes, getD_tailBytes, getD_tailBytes, Nat.add_zero]

/-! ### Digest -/

theorem digest_nil : digest [] = 0#32 := if_pos rfl

/-- Settles O28: for no byte both sides are 0; else the main loop is the fold over the blocks, and its rest is the tail. -/
theorem digestByOffsets : Obligations.DigestByOffsets := by
  intro bytes _
  by_cases hempty : bytes = []
  · subst hempty
    exact digest_nil
  · rw [digest, if_neg hempty, if_neg (mt List.eq_nil_of_length_eq_zero hempty), digestTail_tailBytes,
      digestRounds_eq_foldl]
    rfl

theorem avalanche_zero : avalanche 0#32 = 0#32 := by decide

/-- Settles O29: path 0 gives the accumulator, and each step of the avalanche keeps 0. -/
theorem emptyDigestIsZero : Obligations.EmptyDigestIsZero :=
  ⟨digest_nil, avalanche_zero, fun b0 b1 b2 => by rw [tailMix_zero, avalanche_zero]⟩

end Sys2Proof.Machine
end

section
/-! How the digest commands decode, and what a verdict of the common frame makes of the state (R83, R130). -/

namespace Sys2Proof.Machine

/-! ### Decoding -/

theorem decode_init (arg : Word) : decode (commandWord 0x1#4 arg) = .init arg := by simp [decode]

theorem decode_block (arg : Word) :
    decode (commandWord 0x2#4 arg) = .block (lane 0 arg) (lane 1 arg) (lane 2 arg) (lane 3 arg) := by simp [decode]

theorem decode_finish (arg : Word) : decode (commandWord 0x3#4 arg) = .finish := by simp [decode]

theorem decode_tail1 (arg : Word) : decode (commandWord 0x5#4 arg) = .tail1 (lane 0 arg) := by simp [decode]

theorem decode_tail2 (arg : Word) : decode (commandWord 0x6#4 arg) = .tail2 (lane 0 arg) (lane 1 arg) := by
  simp [decode]

theorem decode_tail3 (arg : Word) :
    decode (commandWord 0x7#4 arg) = .tail3 (lane 0 arg) (lane 1 arg) (lane 2 arg) := by simp [decode]

/-! ### From the verdict to the next state -/

theorem exec_of_verdict {i : Instr} {s : State} {v : Verdict} (hv : verdict i s = v) :
    exec i s = .next (applyVerdict v i.opcode (effect i s) s) := by
  rw [exec_eq, outcome, hv]

section
variable {i : Instr} {s : State} {d : Bool} {check : Option Cause}

/-- In STATE 6 or 7 every command raises INTERNAL (R130 step 1). -/
theorem exec_of_unused (hframe : verdict i s = frameVerdict d check s) (hu : stateUnused s.state = true) :
    exec i s = .next { s with state := .error, cause := .internal, errOp := i.opcode } :=
  exec_of_verdict (hframe.trans (frameVerdict_unused hu))

/-- In ERROR a command that the frame drops changes nothing (R130 step 2). -/
theorem exec_of_error (hframe : verdict i s = frameVerdict true check s) (he : s.state = .error) :
    exec i s = .next s :=
  exec_of_verdict (hframe.trans (frameVerdict_error he))

/-- In STATE 0-4 a command raises what its check finds (R130 step 3). -/
theorem exec_of_check {check : SeqState → Option Cause} {q : SeqState} {c : Cause}
    (hframe : verdict i s = frameVerdict d (check s.state) s) (hs : s.state = q) (hc : check q = some c)
    (hq : stateUnused q = false ∧ q ≠ .error := by decide) :
    exec i s = .next { s with state := .error, cause := c, errOp := i.opcode } := by
  obtain ⟨hu, he⟩ := hq
  have hraise : frameVerdict d (check s.state) s = .raise c := by
    rw [frameVerdict_check (hs ▸ hu) (hs ▸ he), hs, hc]
  exact exec_of_verdict (hframe.trans hraise)

end

end Sys2Proof.Machine
end

section
/-! INIT (R131). -/

namespace Sys2Proof.Machine

theorem blockCount_eq_ofNat (n : Word) : blockCount n = BitVec.ofNat 30 (n.toNat / 4) := by
  apply BitVec.eq_of_toNat_eq
  rw [toNat_blockCount, BitVec.toNat_ushiftRight, Nat.shiftRight_eq_div_pow, toNat_ofNat_of_lt (by omega)]

theorem remainder_eq_ofNat (n : Word) : remainder n = BitVec.ofNat 2 (n.toNat % 4) := by
  apply BitVec.eq_of_toNat_eq
  simp [remainder, Nat.and_two_pow_sub_one_eq_mod _ 2]

theorem blockCount_eq_zero {n : Word} : blockCount n = 0#30 ↔ n.toNat / 4 = 0 := by
  have hlt : n.toNat / 4 < 2 ^ 30 := by omega
  rw [blockCount_eq_ofNat, ← BitVec.toNat_inj, toNat_ofNat_of_lt hlt]
  rfl

theorem outcome_init_zero {s : State} (hu : stateUnused s.state = false) :
    outcome (.init 0#32) s = finishEmptyRun s :=
  outcome_of_run (controlVerdict_run hu)

theorem outcome_init_of_ne_zero {n : Word} {s : State} (hu : stateUnused s.state = false) (hn : n ≠ 0#32) :
    outcome (.init n) s = startRun n s := by
  rw [outcome_of_run (i := .init n) (controlVerdict_run hu), effect, if_neg hn]

/-- `startRun` by the numbers of R131. -/
theorem startRun_eq (n : Word) (s : State) :
    startRun n s = { s with
      cause := .none, errOp := 0x0#4, acc := n, len := n, cnt := BitVec.ofNat 30 (n.toNat / 4),
      rem := BitVec.ofNat 2 (n.toNat % 4), state := if 0 < n.toNat / 4 then .blocks else .tailWait } := by
  have hstate : (if blockCount n = 0#30 then SeqState.tailWait else .blocks) =
      if 0 < n.toNat / 4 then .blocks else .tailWait := by
    simp only [blockCount_eq_zero, Nat.pos_iff_ne_zero, ite_not]
  rw [startRun, hstate, blockCount_eq_ofNat, remainder_eq_ofNat]

/-- Settles O30: INIT has no check, and its effect depends on whether the length is 0. -/
theorem initStartsRun : Obligations.InitStartsRun := by
  intro n s
  have hzero : n.toNat = 0 ↔ n = 0#32 := by rw [← BitVec.toNat_inj]; rfl
  rw [ne_eq, hzero]
  refine ⟨decode_init n, exec_of_unused (d := false) (check := none) rfl, ?empty, ?start, ?flags⟩
  case empty =>
    rintro hu rfl
    rw [exec_eq, outcome_init_zero hu, finishEmptyRun]
  case start =>
    intro hu hn
    rw [exec_eq, outcome_init_of_ne_zero hu hn, startRun_eq]
  case flags =>
    intro t hu hexec
    obtain rfl : outcome (.init n) s = t := by simpa [exec_eq] using hexec
    by_cases hn : n = 0#32
    · subst hn
      rw [outcome_init_zero hu]
      simp +contextual [doneFlag, errFlag, irqFlag, busy]
    · rw [outcome_init_of_ne_zero hu hn]
      by_cases hb : blockCount n = 0#30 <;> simp [doneFlag, errFlag, irqFlag, hb, hn]

end Sys2Proof.Machine
end

section
/-! BLOCK (R132). -/

namespace Sys2Proof.Machine

theorem outcome_block {b0 b1 b2 b3 : Byte} {s : State} (hs : s.state = .blocks) :
    outcome (.block b0 b1 b2 b3) s = consumeBlock b0 b1 b2 b3 s :=
  outcome_of_run (blockVerdict_eq_run.mpr hs)

/-- Settles O31: BLOCK executes in BLOCKS, where its two words are the argument's halves, and its check gives the causes. -/
theorem blockConsumesFourBytes : Obligations.BlockConsumesFourBytes := by
  intro arg s
  simp only
  rw [decode_block]
  refine ⟨rfl, fun hs hcnt => ?run, fun h => exec_of_check rfl h rfl, ?overrun, fun h => exec_of_check rfl h rfl,
    exec_of_error rfl, exec_of_unused rfl⟩
  case overrun => rintro (h | h) <;> exact exec_of_check (check := blockCheck) rfl h rfl
  case run =>
    have hcount : s.cnt - 1#30 = BitVec.ofNat 30 (s.cnt.toNat - 1) := by bv_omega
    have hlast : s.cnt - 1#30 = 0#30 ↔ s.cnt.toNat - 1 = 0 := by bv_omega
    rw [exec_eq, outcome_block hs]
    simp only [consumeBlock, load16_lanes, hlast, hs, ne_eq, ite_not, ← hcount]
    rfl

end Sys2Proof.Machine
end

section
/-! TAIL1, TAIL2 and TAIL3 (R133-R135). -/

namespace Sys2Proof.Machine

section
variable {i : Instr} {k : BitVec 2} {mixed : Word} {s : State}

/-- A tail command executes in TAILWAIT when REM is its own length. -/
theorem outcome_tail (hverdict : verdict i s = tailVerdict k s) (heffect : effect i s = consumeTail mixed s)
    (hs : s.state = .tailWait) (hr : s.rem = k) : outcome i s = consumeTail mixed s :=
  (outcome_of_run (hverdict.trans (tailVerdict_eq_run.mpr ⟨hs, hr⟩))).trans heffect

theorem exec_tail (hverdict : verdict i s = tailVerdict k s) (heffect : effect i s = consumeTail mixed s)
    (hs : s.state = .tailWait) (hr : s.rem = k) : exec i s = .next { s with acc := mixed, state := .finWait } := by
  rw [exec_eq, outcome_tail hverdict heffect hs hr, consumeTail]

/-- Where a tail command does not execute, its check gives the cause. -/
theorem exec_tail_rejected (hverdict : verdict i s = tailVerdict k s) :
    (s.state = .idle → exec i s = .next { s with state := .error, cause := .notStarted, errOp := i.opcode }) ∧
    (s.state = .blocks → exec i s = .next { s with state := .error, cause := .tailEarly, errOp := i.opcode }) ∧
    ((s.state = .tailWait ∧ s.rem ≠ k) ∨ s.state = .finWait →
      exec i s = .next { s with state := .error, cause := .tailUnexpected, errOp := i.opcode }) ∧
    (s.state = .done → exec i s = .next { s with state := .error, cause := .alreadyDone, errOp := i.opcode }) ∧
    (s.state = .error → exec i s = .next s) ∧
    (stateUnused s.state = true → exec i s = .next { s with state := .error, cause := .internal, errOp := i.opcode }) := by
  refine ⟨fun h => exec_of_check hverdict h rfl, fun h => exec_of_check hverdict h rfl, ?unexpected,
    fun h => exec_of_check hverdict h rfl, exec_of_error hverdict, exec_of_unused hverdict⟩
  rintro (⟨h, hr⟩ | h)
  · exact exec_of_check hverdict h (if_neg hr)
  · exact exec_of_check hverdict h rfl

end

/-- Settles O32: path 1 of the multiplexer on lane 0. -/
theorem tailOneConsumesOneByte : Obligations.TailOneConsumesOneByte := by
  intro arg s
  simp only
  rw [decode_tail1]
  exact ⟨rfl, exec_tail rfl rfl, exec_tail_rejected rfl⟩

/-- Settles O33: path 2 of the multiplexer, whose word is the lanes 0 and 1. -/
theorem tailTwoConsumesTwoBytes : Obligations.TailTwoConsumesTwoBytes := by
  intro arg s
  simp only
  rw [decode_tail2, ← load16_lanes 0 arg]
  exact ⟨rfl, exec_tail rfl rfl, exec_tail_rejected rfl⟩

/-- Settles O34: path 3 of the multiplexer, whose word is the lanes 0 and 1 and whose third byte is lane 2. -/
theorem tailThreeConsumesThreeBytes : Obligations.TailThreeConsumesThreeBytes := by
  intro arg s
  simp only
  rw [decode_tail3, ← load16_lanes 0 arg]
  exact ⟨rfl, exec_tail rfl rfl, exec_tail_rejected rfl⟩

end Sys2Proof.Machine
end

section
/-! FINISH (R136). -/

namespace Sys2Proof.Machine

theorem outcome_finish {s : State} (hs : s.state = .finWait) : outcome .finish s = publishDigest s :=
  outcome_of_run (finishVerdict_eq_run.mpr hs)

/-- Settles O35: FINISH executes in FINWAIT, and its check gives the causes. -/
theorem finishPublishesDigest : Obligations.FinishPublishesDigest := by
  intro arg s
  refine ⟨decode_finish arg, fun hs => ?run, fun h => exec_of_check rfl h rfl, ?early,
    fun h => exec_of_check rfl h rfl, exec_of_error rfl, exec_of_unused rfl⟩
  case early => rintro (h | h) <;> exact exec_of_check (check := finishCheck) rfl h rfl
  case run =>
    rw [exec_eq, outcome_finish hs]
    refine ⟨rfl, fun t ht => ?_⟩
    obtain rfl : publishDigest s = t := by simpa using ht
    simp +contextual [digestValid, doneFlag, errFlag, irqFlag]

end Sys2Proof.Machine
end

section
/-! A new run forgets the abandoned one (R145). -/

namespace Sys2Proof.Machine

/-- Two states of one run: they agree in every register that the run reads or writes, and in RESULT once the run is done. -/
structure SameRun (s s' : State) : Prop where
  acc : s.acc = s'.acc
  len : s.len = s'.len
  cnt : s.cnt = s'.cnt
  rem : s.rem = s'.rem
  state : s.state = s'.state
  cause : s.cause = s'.cause
  errOp : s.errOp = s'.errOp
  result : s.state = .done → s.result = s'.result

namespace SameRun

/-- INIT writes every register that a run reads, whatever they held; RESULT it leaves to the run, unless that is done. -/
theorem of_effect_init (n : Word) (s s' : State) : SameRun (effect (.init n) s) (effect (.init n) s') := by
  by_cases hn : n = 0#32
  · simp only [effect, if_pos hn]
    constructor <;> simp
  · simp only [effect, if_neg hn]
    constructor
    case result => by_cases hb : blockCount n = 0#30 <;> simp [hb]
    all_goals simp

section
variable {s s' : State} (h : SameRun s s')
include h

theorem raiseError (c : Cause) (op : Opcode) : SameRun (raiseError c op s) (raiseError c op s') :=
  { h with state := rfl, cause := rfl, errOp := rfl, result := nofun }

theorem clearRun : SameRun (clearRun s) (clearRun s') :=
  { h with cnt := rfl, rem := rfl, state := rfl, cause := rfl, errOp := rfl, result := nofun }

theorem setAccumulator (v : Word) : SameRun (setAccumulator v s) (setAccumulator v s') :=
  { h with acc := rfl }

theorem setEnables (d e : Bool) : SameRun (setEnables d e s) (setEnables d e s') := { h with }

theorem consumeTail (mix : Word → Word) : SameRun (consumeTail (mix s.acc) s) (consumeTail (mix s'.acc) s') :=
  { h with acc := congrArg mix h.acc, state := rfl, result := nofun }

/-- FINISH publishes what it computes from ACC. -/
theorem publishDigest : SameRun (publishDigest s) (publishDigest s') :=
  { h with acc := congrArg avalanche h.acc, state := rfl, result := fun _ => congrArg avalanche h.acc }

/-- BLOCK never ends a run, so nothing is claimed of RESULT. -/
theorem consumeBlock (hs : s.state = .blocks) (b0 b1 b2 b3 : Byte) :
    SameRun (consumeBlock b0 b1 b2 b3 s) (consumeBlock b0 b1 b2 b3 s') := by
  have hnot : (Machine.consumeBlock b0 b1 b2 b3 s).state ≠ .done := by
    rw [consumeBlock_state, hs]
    split <;> [split; skip] <;> decide
  exact { h with
    acc := by simp [h.acc]
    cnt := by simp [h.cnt]
    state := by simp [h.cnt, h.rem, h.state]
    result := fun hdone => absurd hdone hnot }

/-- An effect that is applied reads no register in which the two states may differ. -/
theorem effect {i : Instr} (hv : verdict i s = .run) : SameRun (effect i s) (effect i s') := by
  cases i with
  | init n => exact of_effect_init n s s'
  | block => exact h.consumeBlock (blockVerdict_eq_run.mp hv) _ _ _ _
  | tail1 b0 => exact h.consumeTail (tailMix · 1#2 b0 0 0)
  | tail2 b0 b1 => exact h.consumeTail (tailMix · 2#2 b0 b1 0)
  | tail3 b0 b1 b2 => exact h.consumeTail (tailMix · 3#2 b0 b1 b2)
  | finish => exact h.publishDigest
  | setacc => exact h.setAccumulator _
  | clear => exact h.clearRun
  | config => exact h.setEnables _ _
  | nop | reserved4 | reservedB | reservedC | reservedD | reservedE | reservedF => exact h

theorem outcome (i : Instr) : SameRun (outcome i s) (outcome i s') := by
  have hverdict : verdict i s = verdict i s' := verdict_congr h.state h.rem
  unfold Machine.outcome
  rw [← hverdict]
  cases hv : verdict i s with
  | run => exact h.effect hv
  | drop => exact h
  | raise c => exact h.raiseError c i.opcode

end

theorem runCommands {commands : List Instr} {s s' t t' : State} (h : SameRun s s')
    (ht : runCommands commands s = .next t) (ht' : runCommands commands s' = .next t') : SameRun t t' := by
  induction commands generalizing s s' with
  | nil =>
    obtain rfl : s = t := by simpa [Machine.runCommands] using ht
    obtain rfl : s' = t' := by simpa [Machine.runCommands] using ht'
    exact h
  | cons i commands ih =>
    rw [runCommands_cons] at ht ht'
    exact ih (h.outcome i) ht ht'

end SameRun

/-- Settles O55: INIT makes the two states one run, and every command keeps them so. -/
theorem newRunForgetsAbandonedRun : Obligations.NewRunForgetsAbandonedRun := by
  intro n commands s s' t t' hu hu' ht ht'
  have hinit : SameRun (outcome (.init n) s) (outcome (.init n) s') := by
    rw [outcome_of_run (i := .init n) (controlVerdict_run hu), outcome_of_run (i := .init n) (controlVerdict_run hu')]
    exact .of_effect_init n s s'
  rw [runCommands_cons] at ht ht'
  obtain ⟨hacc, hlen, hcnt, hrem, hstate, hcause, herrOp, hresult⟩ := hinit.runCommands ht ht'
  exact ⟨hacc, hlen, hcnt, hrem, hstate, hcause, herrOp, hresult⟩

end Sys2Proof.Machine
end

section
/-! The commands of the canonical sequence by offsets into the bytes (R65, R142). -/

namespace Sys2Proof.Machine

/-- The BLOCK that carries the bytes 4k to 4k+3. -/
def blockAtOffset (bytes : List Byte) (k : Nat) : Instr :=
  .block (bytes.getD (4 * k) 0) (bytes.getD (4 * k + 1) 0) (bytes.getD (4 * k + 2) 0) (bytes.getD (4 * k + 3) 0)

/-- Past the first four bytes, block k + 1 is block k of the others. -/
theorem blockAtOffset_succ (b0 b1 b2 b3 : Byte) (rest : List Byte) (k : Nat) :
    blockAtOffset (b0 :: b1 :: b2 :: b3 :: rest) (k + 1) = blockAtOffset rest k := rfl

/-- One BLOCK for each full block, in order, and then the tail command of what is left. -/
theorem blocksAndTail_eq : ∀ bytes : List Byte,
    blocksAndTail bytes =
      (List.range (bytes.length / 4)).map (blockAtOffset bytes) ++ (tailCommand (tailBytes bytes)).toList
  | [] | [_] | [_, _] | [_, _, _] => by simp [blocksAndTail, tailBytes, tailCommand]
  | b0 :: b1 :: b2 :: b3 :: rest => by
    have hblocks : (b0 :: b1 :: b2 :: b3 :: rest).length / 4 = rest.length / 4 + 1 :=
      Nat.add_div_right rest.length (show 0 < 4 by decide)
    rw [blocksAndTail, blocksAndTail_eq rest, hblocks, List.range_succ_eq_map, List.map_cons, List.map_map]
    rfl

theorem canonical_of_ne_nil {bytes : List Byte} (h : bytes ≠ []) :
    canonical bytes = .init (lengthWord bytes) :: (blocksAndTail bytes ++ [.finish]) := by
  rw [canonical, if_neg h]

/-! ### The tail -/

theorem tailCommand_of_length_one {tail : List Byte} (h : tail.length = 1) :
    tailCommand tail = some (.tail1 (tail.getD 0 0)) := by
  obtain ⟨b0, rfl⟩ := List.length_eq_one_iff.mp h
  rfl

theorem tailCommand_of_length_two {tail : List Byte} (h : tail.length = 2) :
    tailCommand tail = some (.tail2 (tail.getD 0 0) (tail.getD 1 0)) := by
  obtain ⟨b0, b1, rfl⟩ := List.length_eq_two.mp h
  rfl

theorem tailCommand_of_length_three {tail : List Byte} (h : tail.length = 3) :
    tailCommand tail = some (.tail3 (tail.getD 0 0) (tail.getD 1 0) (tail.getD 2 0)) := by
  obtain ⟨b0, b1, b2, rfl⟩ := List.length_eq_three.mp h
  rfl

/-- The canonical sequence has a tail command exactly when bytes are left over. -/
theorem length_tailCommand_tailBytes (bytes : List Byte) :
    (tailCommand (tailBytes bytes)).toList.length = if bytes.length % 4 ≠ 0 then 1 else 0 := by
  have hlength := length_tailBytes bytes
  have hcases : bytes.length % 4 = 0 ∨ bytes.length % 4 = 1 ∨ bytes.length % 4 = 2 ∨ bytes.length % 4 = 3 := by omega
  obtain h | h | h | h := hcases <;> rw [h] at hlength ⊢
  · rw [List.eq_nil_of_length_eq_zero hlength]; rfl
  · rw [tailCommand_of_length_one hlength]; rfl
  · rw [tailCommand_of_length_two hlength]; rfl
  · rw [tailCommand_of_length_three hlength]; rfl

/-! ### The positions -/

theorem length_blocksAndTail (bytes : List Byte) :
    (blocksAndTail bytes).length = bytes.length / 4 + if bytes.length % 4 ≠ 0 then 1 else 0 := by
  rw [blocksAndTail_eq, List.length_append, length_tailCommand_tailBytes, List.length_map, List.length_range]

theorem length_canonical (bytes : List Byte) :
    (canonical bytes).length =
      if bytes.length = 0 then 1 else 2 + bytes.length / 4 + (if bytes.length % 4 ≠ 0 then 1 else 0) := by
  by_cases hempty : bytes = []
  · subst hempty; rfl
  · rw [canonical_of_ne_nil hempty, List.length_cons, List.length_append, length_blocksAndTail,
      if_neg (mt List.eq_nil_of_length_eq_zero hempty), List.length_singleton]
    omega

/-- The k-th BLOCK stands after INIT and the blocks before it. -/
theorem canonical_getElem?_block {bytes : List Byte} {k : Nat} (hk : k < bytes.length / 4) :
    (canonical bytes)[k + 1]? = some (blockAtOffset bytes k) := by
  have hne : bytes ≠ [] := by rintro rfl; simp at hk
  have hmap : k < ((List.range (bytes.length / 4)).map (blockAtOffset bytes)).length := by simpa using hk
  rw [canonical_of_ne_nil hne, blocksAndTail_eq, List.getElem?_cons_succ, List.append_assoc,
    List.getElem?_append_left hmap]
  simp [hk]

/-- The tail command stands after INIT and all blocks. -/
theorem canonical_getElem?_tail {bytes : List Byte} {i : Instr} (h : tailCommand (tailBytes bytes) = some i) :
    (canonical bytes)[bytes.length / 4 + 1]? = some i := by
  have hne : bytes ≠ [] := by rintro rfl; simp [tailBytes, tailCommand] at h
  rw [canonical_of_ne_nil hne, blocksAndTail_eq, h]
  simp

/-- Settles O52: the blocks and the tail by their offsets, between INIT and FINISH. -/
theorem canonicalSequenceCarriesBytesInOrder : Obligations.CanonicalSequenceCarriesBytesInOrder := by
  intro bytes _
  have hlength := length_tailBytes bytes
  refine ⟨length_canonical bytes, rfl, fun k hk => canonical_getElem?_block hk, fun h => ?one, fun h => ?two,
    fun h => ?three, fun hne => ?last⟩
  case one =>
    rw [canonical_getElem?_tail (tailCommand_of_length_one (hlength.trans h)), getD_tailBytes]
    rfl
  case two =>
    rw [canonical_getElem?_tail (tailCommand_of_length_two (hlength.trans h)), getD_tailBytes, getD_tailBytes]
    rfl
  case three =>
    rw [canonical_getElem?_tail (tailCommand_of_length_three (hlength.trans h)), getD_tailBytes, getD_tailBytes,
      getD_tailBytes]
    rfl
  case last =>
    rw [canonical_of_ne_nil (mt List.length_eq_zero_iff.mpr hne), ← List.cons_append, List.getLast?_concat]

end Sys2Proof.Machine
end

section
/-! A run of commands in which no protocol error is recorded, with the values that ACC takes on the way (R142, R143). -/

namespace Sys2Proof.Machine

/-- The commands lead from the first state to the last, no error is recorded after any of them, and ACC takes these values. -/
inductive CleanRun : State → List Instr → List Word → State → Prop where
  | nil (s : State) : CleanRun s [] [] s
  | cons {s t u : State} {i : Instr} {a : Word} {commands : List Instr} {accs : List Word}
    (hrun : outcome i s = t) (hacc : t.acc = a) (hcause : t.cause = .none) (hstate : t.state ≠ .error)
    (rest : CleanRun t commands accs u) : CleanRun s (i :: commands) (a :: accs) u

namespace CleanRun

variable {s t u : State} {commands more : List Instr} {accs accs' : List Word}

theorem append (h : CleanRun s commands accs t) (h' : CleanRun t more accs' u) :
    CleanRun s (commands ++ more) (accs ++ accs') u := by
  induction h with
  | nil => exact h'
  | cons hrun hacc hcause hstate _ ih => exact .cons hrun hacc hcause hstate (ih h')

theorem runCommands_eq (h : CleanRun s commands accs t) : runCommands commands s = .next t := by
  induction h with
  | nil => rfl
  | cons hrun _ _ _ _ ih => rw [runCommands_cons, hrun, ih]

/-- After each of the commands ACC has its value of the list, and no error is recorded. -/
theorem exists_after_take (h : CleanRun s commands accs t) {k : Nat} (hk : k < commands.length) :
    ∃ u, runCommands (commands.take (k + 1)) s = .next u ∧ accs[k]? = some u.acc ∧ u.cause = .none ∧
      u.state ≠ .error := by
  induction h generalizing k with
  | nil => simp at hk
  | @cons s t _ i _ _ _ hrun hacc hcause hstate _ ih =>
    rw [List.take_succ_cons, runCommands_cons, hrun]
    cases k with
    | zero => exact ⟨t, rfl, congrArg some hacc.symm, hcause, hstate⟩
    | succ k => exact ih (by simpa using hk)

end CleanRun

end Sys2Proof.Machine
end

section
/-! The canonical sequence computes Digest (R18, R143). -/

namespace Sys2Proof.Machine

/-- The phase in which these bytes are still to be consumed. -/
def phaseAwaiting (bytes : List Byte) : SeqState :=
  if bytes = [] then .finWait else if bytes.length / 4 = 0 then .tailWait else .blocks

/-- The phase by the number of blocks and of tail bytes, as BLOCK's effect writes it. -/
theorem phaseAwaiting_eq (bytes : List Byte) :
    phaseAwaiting bytes =
      if bytes.length / 4 = 0 then (if bytes.length % 4 = 0 then .finWait else .tailWait) else .blocks := by
  have hempty : bytes = [] ↔ bytes.length / 4 = 0 ∧ bytes.length % 4 = 0 := by
    rw [← List.length_eq_zero_iff]
    omega
  rw [phaseAwaiting]
  by_cases hq : bytes.length / 4 = 0 <;> simp [hempty, hq]

theorem phaseAwaiting_block (b0 b1 b2 b3 : Byte) (rest : List Byte) :
    phaseAwaiting (b0 :: b1 :: b2 :: b3 :: rest) = .blocks := by
  rw [phaseAwaiting, if_neg (List.cons_ne_nil _ _), if_neg]
  simp only [List.length_cons]
  omega

theorem phaseAwaiting_ne_error (bytes : List Byte) : phaseAwaiting bytes ≠ .error := by
  rw [phaseAwaiting]
  split <;> [skip; split] <;> decide

/-- CNT, REM and STATE say that exactly these bytes are still to be consumed. -/
structure Awaits (bytes : List Byte) (s : State) : Prop where
  cnt : s.cnt = BitVec.ofNat 30 (bytes.length / 4)
  rem : s.rem = BitVec.ofNat 2 bytes.length
  state : s.state = phaseAwaiting bytes

theorem Awaits.state_ne_error {bytes : List Byte} {s : State} (h : Awaits bytes s) : s.state ≠ .error :=
  h.state ▸ phaseAwaiting_ne_error bytes

/-- The state after the last byte is consumed: Digest's accumulator before the avalanche, and FINWAIT. -/
def afterInput (bytes : List Byte) (s : State) : State :=
  { s with acc := digestTail (digestRounds s.acc bytes) (tailBytes bytes), cnt := 0#30, state := .finWait }

theorem ofNat_two_mod_four (n : Nat) : BitVec.ofNat 2 (n % 4) = BitVec.ofNat 2 n := by
  apply BitVec.eq_of_toNat_eq
  simp

theorem digest_of_ne_nil {bytes : List Byte} (hne : bytes ≠ []) :
    digest bytes = avalanche (digestTail (digestRounds (lengthWord bytes) bytes) (tailBytes bytes)) := by
  rw [digest, if_neg hne]

theorem toNat_lengthWord {bytes : List Byte} (hlen : bytes.length < 2 ^ 32) : (lengthWord bytes).toNat = bytes.length :=
  toNat_ofNat_of_lt hlen

theorem remainder_lengthWord {bytes : List Byte} (hlen : bytes.length < 2 ^ 32) :
    remainder (lengthWord bytes) = BitVec.ofNat 2 bytes.length := by
  rw [remainder_eq_ofNat, toNat_lengthWord hlen, ofNat_two_mod_four]

/-- INIT, all bytes and FINISH leave the registers as R143 gives them. -/
theorem publishDigest_afterInput {bytes : List Byte} (hlen : bytes.length < 2 ^ 32) (hne : bytes ≠ []) (s : State) :
    publishDigest (afterInput bytes (startRun (lengthWord bytes) s)) = Claims.afterRun bytes s := by
  rw [Claims.afterRun, digest_of_ne_nil hne, ← remainder_lengthWord hlen]
  rfl

/-- INIT makes the block wait for the bytes that it announces. -/
theorem awaits_startRun {bytes : List Byte} (hlen : bytes.length < 2 ^ 32) (hne : bytes ≠ []) (s : State) :
    Awaits bytes (startRun (lengthWord bytes) s) := by
  constructor
  case cnt => rw [startRun_cnt, blockCount_eq_ofNat, toNat_lengthWord hlen]
  case rem => rw [startRun_rem, remainder_lengthWord hlen]
  case state => simp only [startRun_state, phaseAwaiting, if_neg hne, blockCount_eq_zero, toNat_lengthWord hlen]

/-- BLOCK leaves the block waiting for the bytes after its four. -/
theorem awaits_consumeBlock {b0 b1 b2 b3 : Byte} {rest : List Byte} {s : State} (hlen : rest.length < 2 ^ 32)
    (h : Awaits (b0 :: b1 :: b2 :: b3 :: rest) s) : Awaits rest (consumeBlock b0 b1 b2 b3 s) := by
  obtain ⟨hcnt, hrem, hstate⟩ := h
  have hblocks : (b0 :: b1 :: b2 :: b3 :: rest).length / 4 = rest.length / 4 + 1 :=
    Nat.add_div_right rest.length (show 0 < 4 by decide)
  have hcount : s.cnt - 1#30 = BitVec.ofNat 30 (rest.length / 4) := by
    rw [hcnt, hblocks, BitVec.ofNat_add, BitVec.add_sub_cancel]
  have hremainder : s.rem = BitVec.ofNat 2 rest.length := by
    rw [hrem, ← ofNat_two_mod_four rest.length, ← ofNat_two_mod_four]
    congr 1
    exact Nat.add_mod_right rest.length 4
  constructor
  case cnt => exact hcount
  case rem => exact hremainder
  case state =>
    have hlast : s.cnt - 1#30 = 0#30 ↔ rest.length / 4 = 0 := by
      have hlt : rest.length / 4 < 2 ^ 30 := by omega
      rw [hcount, ← BitVec.toNat_inj, toNat_ofNat_of_lt hlt]
      rfl
    have hnone : s.rem = 0#2 ↔ rest.length % 4 = 0 := by
      rw [hremainder, ← BitVec.toNat_inj, BitVec.toNat_ofNat]
      rfl
    have hphase : s.state = .blocks := hstate.trans (phaseAwaiting_block b0 b1 b2 b3 rest)
    simp only [consumeBlock_state, phaseAwaiting_eq, hlast, hnone, hphase]

/-- The tail command of the right length consumes the rest of the input. -/
theorem cleanRun_tail {bytes : List Byte} {i : Instr} {k : BitVec 2} {mixed : Word} {s : State} (h : Awaits bytes s)
    (hcause : s.cause = .none) (hne : bytes ≠ []) (hcount : bytes.length / 4 = 0) (hk : BitVec.ofNat 2 bytes.length = k)
    (hverdict : verdict i s = tailVerdict k s) (heffect : effect i s = consumeTail mixed s) :
    CleanRun s [i] [mixed] { s with acc := mixed, cnt := 0#30, state := .finWait } := by
  obtain ⟨hcnt, hrem, hstate⟩ := h
  rw [phaseAwaiting, if_neg hne, if_pos hcount] at hstate
  rw [hcount] at hcnt
  have hrun : outcome i s = { s with acc := mixed, cnt := 0#30, state := .finWait } := by
    rw [outcome_tail hverdict heffect hstate (hrem.trans hk), consumeTail, hcnt]
  exact .cons hrun rfl hcause nofun (.nil _)

/-- The BLOCK and TAIL commands of the bytes that the block waits for take Digest's steps 5 and 6. -/
theorem cleanRun_blocksAndTail : ∀ (bytes : List Byte) (s : State), bytes.length < 2 ^ 32 → Awaits bytes s →
    s.cause = .none → CleanRun s (blocksAndTail bytes) (loopTrace s.acc bytes) (afterInput bytes s)
  | [], s, _, h, _ => by
    have hsame : afterInput [] s = s := by
      obtain ⟨hcnt, -, hstate⟩ := h
      cases s
      subst hcnt hstate
      rfl
    rw [hsame]
    exact .nil s
  | [b0], s, _, h, hcause => cleanRun_tail h hcause (by simp) (by simp) rfl rfl rfl
  | [b0, b1], s, _, h, hcause => cleanRun_tail h hcause (by simp) (by simp) rfl rfl rfl
  | [b0, b1, b2], s, _, h, hcause => cleanRun_tail h hcause (by simp) (by simp) rfl rfl rfl
  | b0 :: b1 :: b2 :: b3 :: rest, s, hlen, h, hcause => by
    have hphase : s.state = .blocks := h.state.trans (phaseAwaiting_block b0 b1 b2 b3 rest)
    have hrest : rest.length < 2 ^ 32 := by simp at hlen; omega
    have hnext := awaits_consumeBlock hrest h
    exact .cons (outcome_block hphase) rfl hcause hnext.state_ne_error
      (cleanRun_blocksAndTail rest _ hrest hnext hcause)

/-- The whole canonical sequence passes through Digest's own accumulator values. -/
theorem cleanRun_canonical {bytes : List Byte} {s : State} (hlen : bytes.length < 2 ^ 32)
    (hu : stateUnused s.state = false) :
    CleanRun s (canonical bytes) (digestTrace bytes) (Claims.afterRun bytes s) := by
  by_cases hne : bytes = []
  · subst hne
    exact .cons (outcome_init_zero hu) rfl rfl nofun (.nil _)
  · have hword : lengthWord bytes ≠ 0#32 := by
      rw [ne_eq, ← BitVec.toNat_inj, toNat_lengthWord hlen]
      exact mt List.eq_nil_of_length_eq_zero hne
    have hawaits := awaits_startRun hlen hne s
    have hinput := cleanRun_blocksAndTail bytes (startRun (lengthWord bytes) s) hlen hawaits rfl
    rw [canonical_of_ne_nil hne, digestTrace, if_neg hne]
    refine .cons (outcome_init_of_ne_zero hu hword) rfl rfl hawaits.state_ne_error (hinput.append ?_)
    exact .cons ((outcome_finish rfl).trans (publishDigest_afterInput hlen hne s)) rfl rfl nofun (.nil _)

/-- Settles O53: the clean run gives the last state, and the state after each command. -/
theorem canonicalSequenceYieldsDigest : Obligations.CanonicalSequenceYieldsDigest := by
  intro bytes s hlen hu
  have hrun := cleanRun_canonical hlen hu
  exact ⟨hrun.runCommands_eq, fun k hk => hrun.exists_after_take hk⟩

end Sys2Proof.Machine
end

section
/-! The control commands NOP, SETACC, CLEAR and CONFIG (R150-R153). -/

namespace Sys2Proof.Machine

/-! ### Decoding -/

theorem decode_nop (arg : Word) : decode (commandWord 0x0#4 arg) = .nop := by simp [decode]

theorem decode_setacc (arg : Word) : decode (commandWord 0x8#4 arg) = .setacc arg := by simp [decode]

theorem decode_clear (arg : Word) : decode (commandWord 0x9#4 arg) = .clear := by simp [decode]

theorem decode_config (arg : Word) :
    decode (commandWord 0xA#4 arg) = .config (arg.getLsbD 0) (arg.getLsbD 1) := by simp [decode]

/-! ### Effects and flags -/

section
variable {i : Instr} {s : State}

/-- A command that has no check has its effect in every state 0-5. -/
theorem exec_control (hcontrol : verdict i s = controlVerdict s) (hu : stateUnused s.state = false) :
    exec i s = .next (effect i s) :=
  exec_of_verdict (hcontrol.trans (controlVerdict_run hu))

/-- A command that has no check raises INTERNAL in STATE 6 and 7. -/
theorem exec_control_unused (hcontrol : verdict i s = controlVerdict s) (hu : stateUnused s.state = true) :
    exec i s = .next { s with state := .error, cause := .internal, errOp := i.opcode } :=
  exec_of_unused hcontrol hu

end

/-- In IDLE no flag is set (R32). -/
theorem flags_of_idle {s : State} (hs : s.state = .idle) :
    doneFlag s = false ∧ errFlag s = false ∧ irqFlag s = false := by
  simp [irqFlag, doneFlag, errFlag, hs]

/-- IRQ of a block that is not busy, by STATE and the enables (R180). -/
theorem irqFlag_eq_true_iff {s : State} (hbusy : busy s = false) :
    irqFlag s = true ↔ (s.state = .done ∧ s.ieDone = true) ∨ (s.state = .error ∧ s.ieErr = true) := by
  simp [irqFlag, doneFlag, errFlag, hbusy]

/-- A command can be accepted only when the one before it has completed (R71). -/
theorem inflight_eq_none_of_cmdReady {p : Pins} {s : State} (h : cmdReady p s = true) : s.inflight = none := by
  obtain ⟨-, hbusy⟩ : p.rst = false ∧ busy s = false := by simpa [cmdReady] using h
  exact inflight_eq_none_of_not_busy hbusy

/-! ### The commands -/

/-- Settles O36: NOP has no check and no effect. -/
theorem nopChangesNothing : Obligations.NopChangesNothing := fun arg _ =>
  ⟨decode_nop arg, exec_control rfl, exec_control_unused rfl, fun _ => inflight_eq_none_of_cmdReady⟩

/-- Settles O37: SETACC has no check, and its effect writes ACC. -/
theorem setaccWritesOnlyAccumulator : Obligations.SetaccWritesOnlyAccumulator := fun v _ =>
  ⟨decode_setacc v, exec_control rfl, exec_control_unused rfl⟩

/-- Settles O38: CLEAR has no check, and it leaves IDLE, where no flag is set. -/
theorem clearGoesToIdle : Obligations.ClearGoesToIdle := by
  intro arg s
  refine ⟨decode_clear arg, fun hu => ?run, exec_control_unused rfl⟩
  have hexec : exec .clear s = .next (clearRun s) := exec_control rfl hu
  refine ⟨hexec, fun t ht => ?_⟩
  obtain rfl : clearRun s = t := Host.Outcome.next.inj (hexec.symm.trans ht)
  exact flags_of_idle (clearRun_state s)

/-- Settles O39: CONFIG has no check and writes the enables, of which IRQ is a function. -/
theorem configWritesOnlyEnables : Obligations.ConfigWritesOnlyEnables := by
  intro arg s
  simp only
  rw [decode_config]
  refine ⟨rfl, fun hu => ?run, exec_control_unused rfl⟩
  have hexec : exec (.config (arg.getLsbD 0) (arg.getLsbD 1)) s =
      .next (setEnables (arg.getLsbD 0) (arg.getLsbD 1) s) := exec_control rfl hu
  refine ⟨hexec, fun t ht hbusy => ?_⟩
  obtain rfl : setEnables (arg.getLsbD 0) (arg.getLsbD 1) s = t := Host.Outcome.next.inj (hexec.symm.trans ht)
  exact irqFlag_eq_true_iff hbusy

end Sys2Proof.Machine
end

section
/-! The reserved opcodes (R154). -/

namespace Sys2Proof.Machine

/-- Each reserved opcode has its own command, whatever the argument (R82). -/
theorem decode_mem_reserved {op : Opcode} (hop : op ∈ [0x4#4, 0xB#4, 0xC#4, 0xD#4, 0xE#4, 0xF#4]) (arg : Word) :
    decode (commandWord op arg) ∈ [Instr.reserved4, .reservedB, .reservedC, .reservedD, .reservedE, .reservedF] := by
  simp only [List.mem_cons, List.not_mem_nil, or_false] at hop
  rcases hop with rfl | rfl | rfl | rfl | rfl | rfl <;> simp [decode]

theorem verdict_of_mem_reserved {i : Instr}
    (hi : i ∈ [Instr.reserved4, .reservedB, .reservedC, .reservedD, .reservedE, .reservedF]) (s : State) :
    verdict i s = reservedVerdict s := by
  simp only [List.mem_cons, List.not_mem_nil, or_false] at hi
  rcases hi with rfl | rfl | rfl | rfl | rfl | rfl <;> rfl

/-- A reserved opcode raises ILLEGAL_OP in every state 0-4. -/
theorem exec_reserved {i : Instr} {s : State} (hverdict : verdict i s = reservedVerdict s)
    (hu : stateUnused s.state = false) (he : s.state ≠ .error) :
    exec i s = .next { s with state := .error, cause := .illegalOp, errOp := i.opcode } := by
  have hraise : reservedVerdict s = .raise .illegalOp := frameVerdict_check hu he
  exact exec_of_verdict (hverdict.trans hraise)

/-- Settles O40: the six opcodes have one verdict, and ERR_OP is the opcode that was decoded. -/
theorem reservedOpcodesRaiseIllegalOp : Obligations.ReservedOpcodesRaiseIllegalOp := by
  intro op arg s hop i
  have hi := decode_mem_reserved hop arg
  have hverdict : verdict i s = reservedVerdict s := verdict_of_mem_reserved hi s
  have hopcode : i.opcode = op := (opcode_decode _).trans (opcodeOf_commandWord op arg)
  rw [← hopcode]
  exact ⟨hi, exec_reserved hverdict, exec_of_error hverdict, exec_of_unused hverdict⟩

/-- Settles O41: each of the six commands has the verdict of a reserved opcode. -/
theorem eachReservedOpcodeEntersError : Obligations.EachReservedOpcodeEntersError := fun _ hu he =>
  ⟨exec_reserved rfl hu he, exec_reserved rfl hu he, exec_reserved rfl hu he, exec_reserved rfl hu he,
    exec_reserved rfl hu he, exec_reserved rfl hu he⟩

end Sys2Proof.Machine
end

section
/-! Which verdict each command has in each state: the table of R175. -/

namespace Sys2Proof.Machine

/-- The cell TAILWAIT of TAIL<k>: the table compares numbers, the check the 2-bit values. -/
theorem tailVerdict_tailWait {k : BitVec 2} {s : State} (hs : s.state = .tailWait) :
    tailVerdict k s = if k.toNat = s.rem.toNat then .run else .raise .tailUnexpected := by
  have hiff : k.toNat = s.rem.toNat ↔ s.rem = k := BitVec.toNat_inj.trans eq_comm
  rw [tailVerdict, frameVerdict_check (by rw [hs]; rfl) (by rw [hs]; decide), hs, tailCheck]
  by_cases hr : s.rem = k <;> simp [hiff, hr]

/-- The verdict on a command is its cell of the table. -/
theorem errorRow_getD (i : Instr) (s : State) :
    (Claims.errorRow i.opcode s.rem).getD (stateCode s.state).toNat .run = verdict i s := by
  cases i with
  | nop | init | setacc | clear | config =>
    change _ = controlVerdict s
    cases hs : s.state <;> simp [Claims.errorRow, Instr.opcode, stateCode, controlVerdict, frameVerdict, stateUnused, hs]
  | block =>
    change _ = blockVerdict s
    cases hs : s.state <;>
      simp [Claims.errorRow, Instr.opcode, stateCode, blockVerdict, frameVerdict, blockCheck, stateUnused, hs]
  | tail1 | tail2 | tail3 =>
    change _ = tailVerdict _ s
    cases hs : s.state with
    | tailWait => rw [tailVerdict_tailWait hs]; rfl
    | _ => simp [Claims.errorRow, Instr.opcode, stateCode, tailVerdict, frameVerdict, tailCheck, stateUnused, hs]
  | finish =>
    change _ = finishVerdict s
    cases hs : s.state <;>
      simp [Claims.errorRow, Instr.opcode, stateCode, finishVerdict, frameVerdict, finishCheck, stateUnused, hs]
  | reserved4 | reservedB | reservedC | reservedD | reservedE | reservedF =>
    change _ = reservedVerdict s
    cases hs : s.state <;> simp [Claims.errorRow, Instr.opcode, stateCode, reservedVerdict, frameVerdict, stateUnused, hs]

theorem effect_init_state_ne_error (n : Word) (s : State) : (effect (.init n) s).state ≠ .error := by
  by_cases hn : n = 0#32
  · simp [effect, hn]
  · by_cases hb : blockCount n = 0#30 <;> simp [effect, hn, hb]

/-- A command that executes and leaves ERROR standing found it standing, and keeps what it records. -/
theorem error_before_of_effect_error {i : Instr} {s : State} (hv : verdict i s = .run)
    (he : (effect i s).state = .error) :
    s.state = .error ∧ (effect i s).cause = s.cause ∧ (effect i s).errOp = s.errOp := by
  cases i with
  | init n => exact absurd he (effect_init_state_ne_error n s)
  | block =>
    have hs := blockVerdict_eq_run.mp hv
    by_cases h0 : s.cnt - 1#30 = 0#30
    · by_cases hr : s.rem = 0#2 <;> simp [effect, h0, hr] at he
    · simp [effect, h0, hs] at he
  | tail1 | tail2 | tail3 | finish | clear => simp [effect] at he
  | nop | setacc | config | reserved4 | reservedB | reservedC | reservedD | reservedE | reservedF => exact ⟨he, rfl, rfl⟩

/-- Settles O42: the table's cell is the command's verdict, and the verdict decides what the command does. -/
theorem errorTable : Obligations.ErrorTable := by
  intro i s
  rw [errorRow_getD]
  cases hv : verdict i s with
  | run => exact ⟨effect i s, exec_of_verdict hv, error_before_of_effect_error hv⟩
  | drop => exact exec_of_verdict hv
  | raise c => exact exec_of_verdict hv

end Sys2Proof.Machine
end

section
/-! Error entry (R174) and INTERNAL (R179). -/

namespace Sys2Proof.Machine

/-- A command that takes the block into ERROR from another state does nothing but raise. -/
theorem outcome_eq_raiseError {i : Instr} {s : State} (hs : s.state ≠ .error) (ht : (outcome i s).state = .error) :
    ∃ c, c ≠ .none ∧ outcome i s = raiseError c i.opcode s := by
  obtain ⟨hv, ho⟩ | ⟨-, ho⟩ | ⟨c, -, hc, ho⟩ := outcome_cases i s
  · have ⟨hbefore, _⟩ := error_before_of_effect_error hv (ho ▸ ht)
    exact absurd hbefore hs
  · exact absurd (ho ▸ ht) hs
  · exact ⟨c, hc, ho⟩

/-- A cause that an error records has one of the codes 1 to 8 (R171). -/
theorem causeCode_mem_range {c : Cause} (hc : c ≠ .none) : 1 ≤ (causeCode c).toNat ∧ (causeCode c).toNat ≤ 8 := by
  cases c <;> simp [causeCode] at hc ⊢

/-- The flags and the ports of a block in ERROR (R32, R38, R180). -/
theorem flags_of_error {s : State} (hs : s.state = .error) :
    errFlag s = true ∧ doneFlag s = false ∧
      (busy s = false → irqFlag s = s.ieErr ∧ ∀ p : Pins, p.rst = false → errPort p s = true) := by
  simp +contextual [errFlag, doneFlag, irqFlag, errPort, hs]

/-- Settles O43: the whole effect is the error entry, and the flags are those of ERROR. -/
theorem errorsArePrecise : Obligations.ErrorsArePrecise := by
  intro i s t hexec hs ht
  obtain rfl : outcome i s = t := by simpa [exec_eq] using hexec
  obtain ⟨c, hc, ho⟩ := outcome_eq_raiseError hs ht
  rw [ho]
  obtain ⟨hlow, hhigh⟩ := causeCode_mem_range hc
  exact ⟨rfl, hlow, hhigh, flags_of_error rfl⟩

/-- Every command goes through the common frame (R130). -/
theorem exists_verdict_eq_frameVerdict (i : Instr) (s : State) : ∃ d check, verdict i s = frameVerdict d check s := by
  cases i with
  | nop | init | setacc | clear | config => exact ⟨false, none, rfl⟩
  | block | finish | tail1 | tail2 | tail3 => exact ⟨true, _, rfl⟩
  | reserved4 | reservedB | reservedC | reservedD | reservedE | reservedF => exact ⟨true, some .illegalOp, rfl⟩

/-- Settles O44: the common frame's first test does not depend on the command. -/
theorem unusedStateRaisesInternal : Obligations.UnusedStateRaisesInternal := by
  intro i s hs
  have hu : stateUnused s.state = true := by rcases hs with hs | hs <;> rw [hs] <;> rfl
  obtain ⟨d, check, hframe⟩ := exists_verdict_eq_frameVerdict i s
  exact exec_of_unused hframe hu

end Sys2Proof.Machine
end

section
/-! Commands in ERROR, and the ways out of it (R177, R178). -/

namespace Sys2Proof.Machine

/-- Of the commands in ERROR, INIT and CLEAR leave it, clear what it recorded, and keep the enables. -/
theorem outcome_leaves_error {i : Instr} {s : State} (hs : s.state = .error) (hi : Claims.leavesError i = true) :
    (outcome i s).state ≠ .error ∧ (outcome i s).cause = .none ∧ (outcome i s).errOp = 0x0#4 ∧
      (outcome i s).ieDone = s.ieDone ∧ (outcome i s).ieErr = s.ieErr := by
  have hrun : controlVerdict s = .run := controlVerdict_run (by rw [hs]; rfl)
  cases i with
  | init n =>
    rw [outcome_of_run (i := .init n) hrun]
    refine ⟨effect_init_state_ne_error n s, ?_⟩
    by_cases hn : n = 0#32 <;> simp [effect, hn]
  | clear =>
    rw [outcome_of_run (i := .clear) hrun]
    simp [effect]
  | _ => cases hi

/-- The table's column of ERROR holds no cause. -/
theorem verdict_ne_raise_of_error {i : Instr} {s : State} {c : Cause} (hs : s.state = .error) :
    verdict i s ≠ .raise c := by
  rw [← errorRow_getD, hs, Claims.errorRow]
  split_ifs <;> simp [stateCode]

theorem effect_keeps_error {i : Instr} {s : State} (hv : verdict i s = .run) (hs : s.state = .error)
    (hi : Claims.leavesError i = false) : (effect i s).state = .error := by
  cases i with
  | init | clear => cases hi
  | block => exact absurd (blockVerdict_eq_run.mp hv) (by simp [hs])
  | tail1 | tail2 | tail3 => exact absurd (tailVerdict_eq_run.mp hv) (by simp [hs])
  | finish => exact absurd (finishVerdict_eq_run.mp hv) (by simp [hs])
  | nop | setacc | config | reserved4 | reservedB | reservedC | reservedD | reservedE | reservedF => exact hs

/-- Every other command keeps the error and what it recorded. -/
theorem outcome_keeps_error {i : Instr} {s : State} (hs : s.state = .error) (hi : Claims.leavesError i = false) :
    (outcome i s).state = .error ∧ (outcome i s).cause = s.cause ∧ (outcome i s).errOp = s.errOp := by
  obtain ⟨hv, ho⟩ | ⟨-, ho⟩ | ⟨c, hv, -, -⟩ := outcome_cases i s
  · have he : (effect i s).state = .error := effect_keeps_error hv hs hi
    have ⟨_, hkept⟩ := error_before_of_effect_error hv he
    exact ho ▸ ⟨he, hkept⟩
  · exact ho.symm ▸ ⟨hs, rfl, rfl⟩
  · exact absurd hv (verdict_ne_raise_of_error hs)

theorem runCommands_keeps_error {commands : List Instr} {s t : State} (hs : s.state = .error)
    (hi : ∀ i ∈ commands, Claims.leavesError i = false) (ht : runCommands commands s = .next t) :
    t.state = .error ∧ t.cause = s.cause ∧ t.errOp = s.errOp := by
  induction commands generalizing s with
  | nil =>
    obtain rfl : s = t := by simpa [runCommands] using ht
    exact ⟨hs, rfl, rfl⟩
  | cons i commands ih =>
    obtain ⟨hfirst, hrest⟩ := List.forall_mem_cons.mp hi
    obtain ⟨hstate, hcause, herrOp⟩ := outcome_keeps_error hs hfirst
    rw [runCommands_cons] at ht
    rw [← hcause, ← herrOp]
    exact ih hstate hrest ht

/-- Reset wins over everything else at an edge (R200, R203). -/
theorem step_of_reset {s : State} (hrst : (currentPins s).rst = true) : step s = .next (resetEdge (advance s)) := by
  simp [step, clockEdge, hrst]

/-- Settles O45: the frame drops the commands that have a check, and the others have their effects. -/
theorem errorStateDropsDigestCommands : Obligations.ErrorStateDropsDigestCommands := by
  intro s hs
  have hu : stateUnused s.state = false := by rw [hs]; rfl
  have hleave : ∀ i, Claims.leavesError i = true → ∀ t, exec i s = .next t → t.state ≠ .error := by
    intro i hi t ht
    obtain rfl : outcome i s = t := by simpa [exec_eq] using ht
    exact (outcome_leaves_error hs hi).1
  have hreserved : ∀ i, verdict i s = reservedVerdict s → exec i s = .next s := fun _ hv => exec_of_error hv hs
  exact ⟨fun _ _ _ _ => exec_of_error rfl hs, fun _ => exec_of_error rfl hs, fun _ _ => exec_of_error rfl hs,
    fun _ _ _ => exec_of_error rfl hs, exec_of_error rfl hs, hreserved _ rfl, hreserved _ rfl, hreserved _ rfl,
    hreserved _ rfl, hreserved _ rfl, hreserved _ rfl,
    exec_control rfl hu, fun _ => exec_control rfl hu, fun _ _ => exec_control rfl hu,
    fun n => hleave (.init n) rfl, hleave .clear rfl, fun hbusy p hrst => by simp [cmdReady, hbusy, hrst]⟩

/-- Settles O46: the first clause is the induction on the commands, and an error entry is `raiseError` alone. -/
theorem firstErrorSurvivesUntilCleared : Obligations.FirstErrorSurvivesUntilCleared := by
  refine ⟨fun _ _ _ => runCommands_keeps_error, ?leave, ?reset, ?enter⟩
  case leave =>
    intro i s t hs hi hexec
    obtain rfl : outcome i s = t := by simpa [exec_eq] using hexec
    exact outcome_leaves_error hs hi
  case reset =>
    intro s t hrst hstep
    obtain rfl : resetEdge (advance s) = t := by simpa [step_of_reset hrst] using hstep
    exact ⟨rfl, rfl, rfl⟩
  case enter =>
    intro i s t hs hexec ht
    obtain rfl : outcome i s = t := by simpa [exec_eq] using hexec
    obtain ⟨c, -, ho⟩ := outcome_eq_raiseError hs ht
    rw [ho]
    exact ⟨rfl, rfl⟩

end Sys2Proof.Machine
end

section
/-! Every command and every edge answers a next state (R170, R190). -/

namespace Sys2Proof.Machine

/-- Settles O13: nothing resets, nothing is in flight and nothing is accepted, so the edge is `advance` alone. -/
theorem quietEdgeHoldsState : Obligations.QuietEdgeHoldsState := by
  intro s hrst hvalid hbusy
  have hidle : (advance s).inflight = none := inflight_eq_none_of_not_busy hbusy
  simp only [step, clockEdge, hrst, hidle, hvalid]
  rfl

theorem exists_acceptCommand_eq_next (i : Instr) (s : State) : ∃ t, acceptCommand i s = .next t := by
  by_cases hl : latencyOf i s ≤ 1
  · exact ⟨_, acceptCommand_of_latency_le_one hl⟩
  · exact ⟨_, if_neg hl⟩

/-- An edge resets, lands or counts the command in flight, accepts a command, or holds: each answers a next state. -/
theorem exists_clockEdge_eq_next (p : Pins) (s : State) : ∃ t, clockEdge p s = .next t := by
  unfold clockEdge
  split
  · exact ⟨_, rfl⟩
  · split
    · split
      · exact ⟨_, exec_eq _ _⟩
      · exact ⟨_, rfl⟩
    · split
      · exact exists_acceptCommand_eq_next _ _
      · exact ⟨_, rfl⟩

/-- Settles O15: a command answers its outcome, and an edge a command's outcome or a state of its own. -/
theorem everyEdgeAndCommandCompletes : Obligations.EveryEdgeAndCommandCompletes :=
  ⟨fun i s => ⟨outcome i s, exec_eq i s⟩, fun s => exists_clockEdge_eq_next (currentPins s) (advance s)⟩

end Sys2Proof.Machine
end

section
/-! The interrupt level (R180, R182). -/

namespace Sys2Proof.Machine

/-- Settles O22: a busy block has no IRQ, and STATE has one value at a time. -/
theorem interruptLevel : Obligations.InterruptLevel := by
  intro s
  refine ⟨?level, ?exclusive, fun p hrst => by simp [irqPort, hrst]⟩
  case level =>
    cases hbusy : busy s with
    | true => simp [irqFlag, hbusy]
    | false => simp [irqFlag_eq_true_iff hbusy]
  case exclusive =>
    rintro ⟨hdone, herr⟩
    have hstate : s.state = .done := by simpa [doneFlag] using hdone
    simp [errFlag, hstate] at herr

end Sys2Proof.Machine
end

section
/-! A forged result (R184, R151). -/

namespace Sys2Proof.Machine

/-- Settles O56: SETACC keeps FINWAIT, and FINISH avalanches whatever ACC holds. -/
theorem setaccThenFinishForgesResult : Obligations.SetaccThenFinishForgesResult := by
  intro v s hs
  have hset : outcome (.setacc v) s = setAccumulator v s :=
    outcome_of_run (i := .setacc v) (controlVerdict_run (by rw [hs]; rfl))
  have hfinish : outcome .finish (setAccumulator v s) = publishDigest (setAccumulator v s) := outcome_finish hs
  exact ⟨publishDigest (setAccumulator v s), by rw [runCommands_cons, hset, runCommands_cons, hfinish]; rfl,
    rfl, rfl⟩

end Sys2Proof.Machine
end

section
/-! One edge by its kind: a reset edge, an edge that accepts a command, an edge that lands one (R200, R210, R211). -/

namespace Sys2Proof.Machine

/-- At its last busy edge a command in flight has its effect (R211). -/
theorem step_of_landing {s : State} {c : InFlight} (hrst : (currentPins s).rst = false) (hflight : s.inflight = some c)
    (hlast : c.edgesLeft ≤ 1) : step s = exec c.command (endFlight (advance s)) := by
  simp [step, clockEdge, hrst, hflight, hlast]

/-- Settles O6: the port's command is accepted with its whole effect, and the command in flight lands. -/
theorem stepRunsDecodedCommand : Obligations.StepRunsDecodedCommand := by
  intro s hrst
  refine ⟨fun hbusy hvalid hlatency => ?accept, fun c hflight hlast => step_of_landing hrst hflight hlast⟩
  case accept =>
    have hadvance : latencyOf (decode (portWord (currentPins s))) (advance s) ≤ 1 := hlatency
    rw [step_eq_acceptCommand hrst (inflight_eq_none_of_not_busy hbusy) hvalid, acceptCommand, if_pos hadvance]
    rfl

/-- The decoder reads a bit string only when the port has wires for it (R80, R81). -/
theorem decode_of_decodeTableWord {nbits w : Nat} {i : Instr} (h : decodeTableWord nbits w = some i) :
    decode (BitVec.ofNat 36 (w % 2 ^ nbits)) = i := by
  unfold decodeTableWord decodeBits at h
  split at h
  · exact Option.some.inj h
  · cases h

/-- Settles O7: the placed word stands on the port of a block that is not busy and whose every latency is 1. -/
theorem placedCommandRunsNext : Obligations.PlacedCommandRunsNext := by
  intro s nbits w i hdecode
  have hword : decode (portWord (currentPins (s.withFetchWord nbits w))) = i :=
    (congrArg decode (portWord_presentWord _)).trans (decode_of_decodeTableWord hdecode)
  have ⟨haccept, _⟩ := stepRunsDecodedCommand (s.withFetchWord nbits w) rfl
  rw [haccept rfl rfl (latencyOf_singleCycle rfl).le, hword]
  rfl

/-- Settles O11: rst = 1 closes the port, and the edge is `resetEdge`. -/
theorem resetWinsOverEveryCommand : Obligations.ResetWinsOverEveryCommand :=
  fun _ hrst => ⟨by simp [cmdReady, hrst], step_of_reset hrst⟩

/-- The observation map does not read the model's own fields, so every reset state shows the values of `State.reset`. -/
theorem obsValue_resetWith (sel : BitVec 3) (lat : Latencies) (pins : List Pins) (draws : Nat) :
    obsValue sel (State.resetWith lat pins draws) = obsValue sel State.reset := rfl

/-- Settles O12: the reset state is written out, and what is computed from it does not read the model's own fields. -/
theorem resetGivesEveryRegisterItsValue : Obligations.ResetGivesEveryRegisterItsValue := by
  have hstatus : obsValue 0#3 State.reset = 0x00000000#32 := by decide
  refine ⟨⟨_, _, _, rfl⟩, fun lat pins draws => ?_⟩
  exact ⟨rfl, rfl, rfl, rfl, rfl, rfl, rfl, rfl, rfl, rfl, rfl, rfl, rfl, rfl,
    (obsValue_resetWith 0#3 lat pins draws).trans hstatus, rfl⟩

/-- An edge that accepts no command reads rst alone of the ports (R38, R210). -/
theorem clockEdge_congr_of_not_accepted {p q : Pins} {s : State} (hrst : p.rst = q.rst)
    (hp : (p.cmdValid && cmdReady p s) = false) (hq : (q.cmdValid && cmdReady q s) = false) :
    clockEdge p s = clockEdge q s := by
  cases hr : q.rst with
  | true => simp [clockEdge, hrst, hr]
  | false =>
    cases hflight : s.inflight with
    | some c => simp [clockEdge, hrst, hr, hflight]
    | none =>
      have hready : ∀ r : Pins, r.rst = false → cmdReady r s = true := fun r hr => by simp [cmdReady, busy, hr, hflight]
      have hpv : p.cmdValid = false := by simpa [hready p (hrst.trans hr)] using hp
      have hqv : q.cmdValid = false := by simpa [hready q hr] using hq
      simp [clockEdge, hrst, hr, hflight, hpv, hqv]

/-- Settles O14: after the inputs have moved on, the two edges differ in the port contents alone. -/
theorem unacceptedCommandHasNoEffect : Obligations.UnacceptedCommandHasNoEffect :=
  fun s _ _ rest hrst hp hq =>
    clockEdge_congr_of_not_accepted (s := advance { s with pins := Pins.quiet :: rest }) hrst hp hq

end Sys2Proof.Machine
end

section
/-! The output ports while rst = 1 and while BUSY = 1 (R202, R212). -/

namespace Sys2Proof.Machine

/-- Settles O17: rst = 1 masks every output, and the reset edge leaves nothing in flight. -/
theorem outputsShowResetWhileReset : Obligations.OutputsShowResetWhileReset := by
  intro p read s hrst
  have hobs : obsData p read s = obsValue p.obsSel State.reset := by
    rw [obsData, if_pos hrst, resetEdge, obsValue_resetWith]
  refine ⟨by simp [cmdReady, hrst], if_pos hrst, by simp [digestValid, hrst], by simp [errPort, hrst],
    by simp [irqPort, hrst], hobs, fun u t hreset hstep q hq => ?ready⟩
  case ready =>
    obtain rfl : resetEdge (advance u) = t := by simpa [step_of_reset hreset] using hstep
    simp [cmdReady, busy, hq]

/-- The word that `obs_data` shows for STATUS while BUSY = 1 has bit 3 forced as the field BUSY of STATUS is. -/
theorem busyBit_eq_field : 0x00000008#32 = zext32 (BitVec.ofBool true) <<< 3 := rfl

/-- Bit 3 of STATUS reads 1 while BUSY = 1. -/
theorem getLsbD_obsWhileBusy_status (read : Nat) (s : State) : (obsWhileBusy 0#3 read s).getLsbD 3 = true := by
  rw [obsWhileBusy, if_pos rfl, BitVec.getLsbD_or, busyBit_eq_field, getLsbD_field_same true (by decide), Bool.or_true]

/-- Every other bit is the free value's. -/
theorem getLsbD_obsWhileBusy_free {sel : BitVec 3} {k : Nat} (h : sel = 0#3 → k ≠ 3) (read : Nat) (s : State) :
    (obsWhileBusy sel read s).getLsbD k = (Config.freeObs s.draws read sel).getLsbD k := by
  rw [obsWhileBusy]
  split
  · next hsel =>
    have hk : 3 + 1 ≤ k ∨ k < 3 := by have := h hsel; omega
    rw [BitVec.getLsbD_or, busyBit_eq_field, getLsbD_field_disjoint _ hk, Bool.or_false]
  · rfl

/-- Settles O18: `obs_data` is `obsWhileBusy`, `digest` is a free value, and BUSY masks the other outputs. -/
theorem outputsWhileBusy : Obligations.OutputsWhileBusy := by
  intro p read s hrst hbusy
  have hobs : obsData p read s = obsWhileBusy p.obsSel read s := by simp [obsData, hrst, hbusy]
  rw [hobs]
  refine ⟨fun hsel => hsel ▸ getLsbD_obsWhileBusy_status read s, fun _ hk => getLsbD_obsWhileBusy_free hk read s, ?_⟩
  simp [digestPort, digestValid, errPort, irqPort, irqFlag, cmdReady, hrst, hbusy]

end Sys2Proof.Machine
end

section
/-! The latency of a command (R214). -/

namespace Sys2Proof.Machine

/-- R214's list of the latencies, by the opcode. -/
theorem executingLatency_by_opcode (i : Instr) (lat : Latencies) :
    executingLatency i lat =
      if i.opcode = 0x1#4 then lat.init
      else if i.opcode = 0x2#4 then lat.block
      else if i.opcode = 0x5#4 ∨ i.opcode = 0x6#4 ∨ i.opcode = 0x7#4 then lat.tail
      else if i.opcode = 0x3#4 then lat.finish
      else lat.ctrl := by
  cases i <;> rfl

/-- Settles O9: the table's cell is the verdict, which decides between the command's own latency and LAT_CTRL. -/
theorem latencyByCommand : Obligations.LatencyByCommand := by
  intro i s
  rw [errorRow_getD, latencyOf, executingLatency_by_opcode]

/-- A command that executes takes its own latency. -/
theorem latencyOf_of_run {i : Instr} {s : State} (hv : verdict i s = .run) : latencyOf i s = executingLatency i s.lat :=
  if_pos hv

theorem executingLatency_pos {lat : Latencies} (h : lat.wellFormed = true) (i : Instr) : 1 ≤ executingLatency i lat := by
  obtain ⟨⟨⟨⟨hinit, hblock⟩, htail⟩, hfinish⟩, hctrl⟩ :
      (((1 ≤ lat.init ∧ 1 ≤ lat.block) ∧ 1 ≤ lat.tail) ∧ 1 ≤ lat.finish) ∧ 1 ≤ lat.ctrl := by
    simpa [Latencies.wellFormed] using h
  cases i with
  | init => exact hinit
  | block => exact hblock
  | tail1 | tail2 | tail3 => exact htail
  | finish => exact hfinish
  | _ => exact hctrl

end Sys2Proof.Machine
end

section
/-! A command of any latency is one atomic command (R211). -/

namespace Sys2Proof.Machine

/-! ### The host's coming inputs -/

/-- The host drives no reset in the next `k` edges. -/
def NoReset (k : Nat) (s : State) : Prop := ∀ p ∈ s.pins.take k, p.rst = false

/-- No reset at the next edge, and none at the edges after it. -/
theorem noReset_succ {k : Nat} {s : State} : NoReset (k + 1) s ↔ (currentPins s).rst = false ∧ NoReset k (advance s) := by
  cases hpins : s.pins <;> simp [NoReset, currentPins, hpins, Pins.quiet]

theorem NoReset.mono {j k : Nat} {s : State} (h : NoReset k s) (hjk : j ≤ k) : NoReset j s :=
  fun p hp => h p (List.take_subset_take_left _ hjk hp)

/-- What passing edges move: the inputs and the counter of the free values, and no register. -/
theorem advance_iterate (k : Nat) (s : State) :
    advance^[k] s = { s with pins := s.pins.drop k, draws := s.draws + k } := by
  induction k with
  | zero => rfl
  | succ k ih =>
    rw [Function.iterate_succ_apply', ih, advance, List.tail_drop]
    rfl

@[simp] theorem advance_iterate_inflight (k : Nat) (s : State) : (advance^[k] s).inflight = s.inflight := by
  rw [advance_iterate]

@[simp] theorem advance_iterate_lat (k : Nat) (s : State) : (advance^[k] s).lat = s.lat := by
  rw [advance_iterate]

@[simp] theorem advance_iterate_pins (k : Nat) (s : State) : (advance^[k] s).pins = s.pins.drop k := by
  rw [advance_iterate]

/-! ### From acceptance to landing -/

theorem endFlight_putInFlight {i : Instr} {n : Nat} {s : State} (hidle : s.inflight = none) :
    endFlight (putInFlight i n s) = s := by
  rw [endFlight, putInFlight, ← hidle]

/-- A busy edge that is not the last counts down, whatever the host presents (R38, R211). -/
theorem step_putInFlight_succ {i : Instr} {n : Nat} {s : State} (hrst : (currentPins s).rst = false) (hn : 1 ≤ n) :
    step (putInFlight i (n + 1) s) = .next (putInFlight i n (advance s)) := by
  have hmore : ¬ n + 1 ≤ 1 := by omega
  have hpins : currentPins (putInFlight i (n + 1) s) = currentPins s := rfl
  simp only [step, clockEdge, hpins, hrst, advance_inflight, putInFlight_inflight, if_neg hmore]
  rfl

/-- The last busy edge lands the command on the state that the flight left as it was (R211, log entry 14). -/
theorem step_putInFlight_one {i : Instr} {s : State} (hrst : (currentPins s).rst = false) (hidle : s.inflight = none) :
    step (putInFlight i 1 s) = .next (outcome i (advance s)) := by
  have hend : endFlight (advance (putInFlight i 1 s)) = advance s := endFlight_putInFlight (s := advance s) hidle
  have hland : step (putInFlight i 1 s) = exec i (endFlight (advance (putInFlight i 1 s))) :=
    step_of_landing (c := ⟨i, 1⟩) hrst rfl le_rfl
  rw [hland, hend, exec_eq]

/-- Before its last edge a flight has only counted down. -/
theorem runClock_putInFlight_before {i : Instr} {k n : Nat} {s : State} (hk : k < n) (hrst : NoReset k s) :
    runClock k (putInFlight i n s) = .next (putInFlight i (n - k) (advance^[k] s)) := by
  induction k generalizing n s with
  | zero => rfl
  | succ k ih =>
    obtain ⟨m, rfl⟩ : ∃ m, n = m + 1 := ⟨n - 1, by omega⟩
    obtain ⟨hfirst, hrest⟩ := noReset_succ.mp hrst
    rw [runClock_succ k (step_putInFlight_succ hfirst (by omega)), ih (by omega) hrest, Nat.add_sub_add_right]
    rfl

/-- A flight of `n + 1` edges ends in the command's whole effect. -/
theorem runClock_putInFlight_lands {i : Instr} {n : Nat} {s : State} (hidle : s.inflight = none)
    (hrst : NoReset (n + 1) s) :
    runClock (n + 1) (putInFlight i (n + 1) s) = .next (outcome i (advance^[n + 1] s)) := by
  induction n generalizing s with
  | zero => exact runClock_succ 0 (step_putInFlight_one (noReset_succ.mp hrst).1 hidle)
  | succ n ih =>
    obtain ⟨hfirst, hrest⟩ := noReset_succ.mp hrst
    rw [runClock_succ (n + 1) (step_putInFlight_succ hfirst (by omega)), ih (s := advance s) hidle hrest]
    rfl

section
variable {s : State} {i : Instr} (hidle : s.inflight = none) (hvalid : (currentPins s).cmdValid = true)
  (hdecode : decode (portWord (currentPins s)) = i)
include hidle hvalid hdecode

/-- A command with a latency above 1 goes into flight for the edges that are left of it (R211). -/
theorem step_of_accepted_long (hrst : (currentPins s).rst = false) (hlong : 1 < latencyOf i s) :
    step s = .next (putInFlight i (latencyOf i s - 1) (advance s)) := by
  have hadvance : latencyOf i (advance s) = latencyOf i s := latencyOf_congr rfl rfl rfl
  rw [step_eq_acceptCommand hrst hidle hvalid, hdecode, acceptCommand, hadvance, if_neg (not_le.mpr hlong)]

/-- Between acceptance and landing the command is in flight, and no register has changed (log entry 14). -/
theorem runClock_accepted_before {k : Nat} (hk : 1 ≤ k) (hlt : k < latencyOf i s) (hrst : NoReset k s) :
    runClock k s = .next (putInFlight i (latencyOf i s - k) (advance^[k] s)) := by
  obtain ⟨k, rfl⟩ : ∃ j, k = j + 1 := ⟨k - 1, by omega⟩
  obtain ⟨hfirst, hrest⟩ := noReset_succ.mp hrst
  rw [runClock_succ k (step_of_accepted_long hidle hvalid hdecode hfirst (by omega)),
    runClock_putInFlight_before (by omega) hrest, Nat.sub_sub, Nat.add_comm 1 k]
  rfl

/-- After its latency a command has had its whole effect (R211). -/
theorem runClock_accepted_lands (hpos : 1 ≤ latencyOf i s) (hrst : NoReset (latencyOf i s) s) :
    runClock (latencyOf i s) s = .next (outcome i (advance^[latencyOf i s] s)) := by
  obtain hone | ⟨n, hlong⟩ : latencyOf i s = 1 ∨ ∃ n, latencyOf i s = n + 2 :=
    (Nat.eq_or_lt_of_le hpos).imp Eq.symm fun h => ⟨latencyOf i s - 2, by omega⟩
  · rw [hone] at hrst ⊢
    have hadvance : latencyOf i (advance s) ≤ 1 := hone.le
    refine runClock_succ 0 ?_
    rw [step_eq_acceptCommand (noReset_succ.mp hrst).1 hidle hvalid, hdecode, acceptCommand_of_latency_le_one hadvance]
    rfl
  · have hstep := step_of_accepted_long hidle hvalid hdecode
    rw [hlong] at hrst hstep ⊢
    obtain ⟨hfirst, hrest⟩ := noReset_succ.mp hrst
    rw [runClock_succ (n + 1) (hstep hfirst (by omega))]
    exact runClock_putInFlight_lands (s := advance s) hidle hrest

end

/-- Settles O8: the first edge accepts the command, the edges between count down, and the last one lands it. -/
theorem latencyRefinesAtomicCommand : Obligations.LatencyRefinesAtomicCommand := by
  intro s i L hbusy hvalid hdecode hL hpos hrst
  subst hL
  have hidle := inflight_eq_none_of_not_busy hbusy
  have hlands := runClock_accepted_lands hidle hvalid hdecode hpos hrst
  refine ⟨by rw [hlands, exec_eq], fun k hk hlt => ⟨?before, fun p => by simp [cmdReady, busy]⟩, fun t ht => ?idle⟩
  case before => exact runClock_accepted_before hidle hvalid hdecode hk hlt (NoReset.mono hrst hlt.le)
  case idle =>
    obtain rfl : outcome i (advance^[latencyOf i s] s) = t := by simpa [hlands] using ht
    simp [busy, hidle]

end Sys2Proof.Machine
end

section
/-! The canonical sequence on the clock (R143, R216). -/

namespace Sys2Proof.Machine

/-! ### A command presented alone -/

/-- The host presents a command for as many edges as it takes. -/
theorem length_presentAndWait {lat : Latencies} (hlat : lat.wellFormed = true) (i : Instr) :
    (presentAndWait lat i).length = executingLatency i lat := by
  have hpos := executingLatency_pos hlat i
  simp only [presentAndWait, List.length_cons, List.length_replicate]
  omega

theorem rst_of_mem_presentAndWait {lat : Latencies} {i : Instr} {p : Pins} (hp : p ∈ presentAndWait lat i) :
    p.rst = false := by
  obtain rfl | hp := List.mem_cons.mp hp
  · rfl
  · rw [List.eq_of_mem_replicate hp]; rfl

theorem presentAll_cons (lat : Latencies) (i : Instr) (commands : List Instr) :
    presentAll lat (i :: commands) = presentAndWait lat i ++ presentAll lat commands := List.flatMap_cons

/-- A presented command that executes has its whole effect after the edges for which the host presents it. -/
theorem runClock_presentAndWait {i : Instr} {s : State} {more : List Pins} (hrun : verdict i s = .run)
    (hlat : s.lat.wellFormed = true) (hidle : s.inflight = none) (hpins : s.pins = presentAndWait s.lat i ++ more) :
    runClock (presentAndWait s.lat i).length s = .next (advance^[(presentAndWait s.lat i).length] (outcome i s)) := by
  have hcurrent : currentPins s = presentWord (encode i) := by rw [currentPins, hpins]; rfl
  have hvalid : (currentPins s).cmdValid = true := by rw [hcurrent]; rfl
  have hdecode : decode (portWord (currentPins s)) = i := by rw [hcurrent, portWord_presentWord, decode_encode]
  have hlength : (presentAndWait s.lat i).length = latencyOf i s := by
    rw [length_presentAndWait hlat, latencyOf_of_run hrun]
  have hrst : NoReset (presentAndWait s.lat i).length s := by
    rw [NoReset, hpins, List.take_left]
    exact fun _ => rst_of_mem_presentAndWait
  have hpos : 1 ≤ latencyOf i s := latencyOf_of_run hrun ▸ executingLatency_pos hlat i
  rw [hlength] at hrst ⊢
  rw [runClock_accepted_lands hidle hvalid hdecode hpos hrst, advance_iterate_outcome]

/-! ### Commands presented without gaps -/

/-- A command is dropped in ERROR alone (R130 step 2). -/
theorem state_eq_error_of_verdict_eq_drop {i : Instr} {s : State} (hv : verdict i s = .drop) : s.state = .error := by
  obtain ⟨d, check, hframe⟩ := exists_verdict_eq_frameVerdict i s
  rw [hframe] at hv
  cases hu : stateUnused s.state with
  | true => rw [frameVerdict_unused hu] at hv; cases hv
  | false =>
    by_contra he
    rw [frameVerdict_check hu he] at hv
    cases check <;> cases hv

/-- A command that does not end in ERROR has executed. -/
theorem verdict_eq_run_of_state_ne_error {i : Instr} {s : State} (h : (outcome i s).state ≠ .error) :
    verdict i s = .run := by
  obtain ⟨hv, -⟩ | ⟨hv, ho⟩ | ⟨c, -, -, ho⟩ := outcome_cases i s
  · exact hv
  · exact absurd (ho.symm ▸ state_eq_error_of_verdict_eq_drop hv) h
  · exact absurd (ho.symm ▸ rfl) h

namespace CleanRun

variable {s t : State} {commands : List Instr} {accs : List Word}

/-- No command of a run reads the host's inputs or the draw counter. -/
theorem advance (h : CleanRun s commands accs t) : CleanRun (advance s) commands accs (Machine.advance t) := by
  induction h with
  | nil s => exact .nil _
  | @cons s t _ i _ _ _ hrun hacc hcause hstate _ ih =>
    exact .cons (t := Machine.advance t) (by rw [outcome_advance, hrun]) hacc hcause hstate ih

theorem advance_iterate (k : Nat) (h : CleanRun s commands accs t) :
    CleanRun (Machine.advance^[k] s) commands accs (Machine.advance^[k] t) := by
  induction k with
  | zero => exact h
  | succ k ih => rw [Function.iterate_succ_apply', Function.iterate_succ_apply']; exact ih.advance

/-- A clean run, presented on the port without gaps, takes one edge for each entry of the input list that presents it. -/
theorem runClock_eq {more : List Pins} (h : CleanRun s commands accs t) (hlat : s.lat.wellFormed = true)
    (hidle : s.inflight = none) (hpins : s.pins = presentAll s.lat commands ++ more) :
    runClock (presentAll s.lat commands).length s = .next (Machine.advance^[(presentAll s.lat commands).length] t) := by
  induction commands generalizing s t accs with
  | nil => cases h; rfl
  | cons i commands ih =>
    cases h with
    | cons hrun _ _ hstate hrest =>
      subst hrun
      rw [presentAll_cons, List.append_assoc] at hpins
      have hfirst := runClock_presentAndWait (verdict_eq_run_of_state_ne_error hstate) hlat hidle hpins
      have hothers := ih (hrest.advance_iterate (presentAndWait s.lat i).length) (by simpa using hlat)
        (by simpa using hidle) (by simp [hpins])
      rw [advance_iterate_lat, outcome_lat] at hothers
      rw [presentAll_cons, List.length_append, runClock_add _ _ hfirst, hothers, Nat.add_comm,
        Function.iterate_add_apply]

end CleanRun

/-! ### The number of edges -/

/-- The edges of a command list presented without gaps. -/
theorem length_presentAll {lat : Latencies} (hlat : lat.wellFormed = true) (commands : List Instr) :
    (presentAll lat commands).length = (commands.map (executingLatency · lat)).sum := by
  simp only [presentAll, List.length_flatMap, length_presentAndWait hlat]

theorem executingLatency_of_tailCommand {tail : List Byte} {i : Instr} (h : tailCommand tail = some i)
    (lat : Latencies) : executingLatency i lat = lat.tail := by
  unfold tailCommand at h
  split at h <;> cases h <;> rfl

/-- One LAT_BLOCK for each full block, and LAT_TAIL where bytes are left over. -/
theorem sum_latency_blocksAndTail (lat : Latencies) (bytes : List Byte) :
    ((blocksAndTail bytes).map (executingLatency · lat)).sum =
      bytes.length / 4 * lat.block + if bytes.length % 4 ≠ 0 then lat.tail else 0 := by
  have hblocks : (((List.range (bytes.length / 4)).map (blockAtOffset bytes)).map (executingLatency · lat)).sum =
      bytes.length / 4 * lat.block := by
    rw [List.sum_eq_card_nsmul _ lat.block (by simp [blockAtOffset, executingLatency])]
    simp
  have htail : (((tailCommand (tailBytes bytes)).toList).map (executingLatency · lat)).sum =
      if bytes.length % 4 ≠ 0 then lat.tail else 0 := by
    have hall : ∀ n ∈ ((tailCommand (tailBytes bytes)).toList).map (executingLatency · lat), n = lat.tail := by
      simpa using fun i hi => executingLatency_of_tailCommand hi lat
    rw [List.sum_eq_card_nsmul _ lat.tail hall, List.length_map, length_tailCommand_tailBytes]
    split <;> simp
  rw [blocksAndTail_eq, List.map_append, List.sum_append, hblocks, htail]

/-- The edges of the canonical sequence are R216's. -/
theorem length_presentAll_canonical {lat : Latencies} (hlat : lat.wellFormed = true) (bytes : List Byte) :
    (presentAll lat (canonical bytes)).length = Claims.runEdges lat bytes.length := by
  rw [length_presentAll hlat, Claims.runEdges]
  by_cases hempty : bytes = []
  · subst hempty; rfl
  · rw [canonical_of_ne_nil hempty, if_neg (mt List.eq_nil_of_length_eq_zero hempty), List.map_cons, List.sum_cons,
      List.map_append, List.sum_append, sum_latency_blocksAndTail, ← Nat.add_assoc, ← Nat.add_assoc]
    rfl

/-- Settles O54: the canonical sequence is a clean run, and what the edges move besides is the inputs and the counter. -/
theorem clockedRunYieldsDigest : Obligations.ClockedRunYieldsDigest := by
  intro bytes s rest hlen hu hbusy hlat hpins
  have hrun := (cleanRun_canonical hlen hu).runClock_eq hlat (inflight_eq_none_of_not_busy hbusy) hpins
  rw [← length_presentAll_canonical hlat, hrun, advance_iterate]
  simp [Claims.afterRun, hpins]

end Sys2Proof.Machine
end
